-- ==== Sys2Proof/Word.lean ====
section
/-! DEFINITION. The machine's words and bytes (00_scope R6, 01_machine R17). -/

namespace Sys2Proof

/-- A byte of memory. -/
abbrev Byte := BitVec 8

/-- A 64-bit register value (01 R17). -/
abbrev Word := BitVec 64

/-- A 128-byte vector register (01 R17, R20). -/
abbrev VReg := BitVec 1024

/-- A mask register, one bit for each byte lane (01 R17, R20). -/
abbrev KReg := BitVec 128

/-- A 96-bit instruction word (04 R87). -/
abbrev IWord := BitVec 96

/-- Bits `hi` down to `lo` of `x`, as a number. -/
def Nat.bits (x hi lo : Nat) : Nat := x / 2 ^ lo % 2 ^ (hi + 1 - lo)

end Sys2Proof
end

