-- ==== Sys2Proof/Syntax.lean ====
section
/-! DEFINITION. The instruction set as data: registers, the field groups of the three formats (04 R96-R99), and one
constructor of `Instr` for each row of the opcode table: the instructions first, then the events of the other agents
(95_what_each_step_holds). -/

namespace Sys2Proof

/-- A code of the register namespace (01 R17). -/
inductive Reg where
  | s (n : BitVec 6)
  | v (n : BitVec 5)
  | k (n : BitVec 3)
  | m (n : BitVec 4)
  | q (n : BitVec 3)
  deriving DecidableEq, Repr, Inhabited

/-- The U bit, the mask register and the negate bit of every word (04 R96). -/
structure Hd where
  u : Bool
  pm : BitVec 3
  pn : Bool
  deriving DecidableEq, Repr, Inhabited

/-- F3 with the scalar family's modifier (04 R99): `x` is bits [41:32]. -/
structure ScF where
  hd : Hd
  d : Reg
  a : Reg
  b : Reg
  c : Reg
  ib : Bool
  ty : BitVec 3
  cond : BitVec 4
  iz : Bool
  x : BitVec 10
  imm : BitVec 32
  deriving DecidableEq, Repr, Inhabited

/-- F3 with the memory family's modifier (04 R99): `x` is bits [35:32]. -/
structure MemF where
  hd : Hd
  d : Reg
  a : Reg
  b : Reg
  c : Reg
  size : BitVec 3
  sgn : Bool
  order : BitVec 3
  scope : BitVec 3
  scopen : BitVec 4
  far : Bool
  x : BitVec 4
  imm : BitVec 32
  deriving DecidableEq, Repr, Inhabited

/-- F3 with the vector family's modifier (04 R99): `x` is bits [34:32]. -/
structure VecF where
  hd : Hd
  d : Reg
  a : Reg
  b : Reg
  c : Reg
  fmt : BitVec 5
  fmt2 : BitVec 5
  rnd : BitVec 3
  zm : Bool
  nov : Bool
  sb : Bool
  x : BitVec 3
  imm : BitVec 32
  deriving DecidableEq, Repr, Inhabited

/-- F3 with the Wheel family's modifier (04 R99): `x` is bits [38:32]. -/
structure WhF where
  hd : Hd
  d : Reg
  a : Reg
  b : Reg
  c : Reg
  fmta : BitVec 5
  fmtb : BitVec 5
  acc : Bool
  p24 : Bool
  x : BitVec 7
  imm : BitVec 32
  deriving DecidableEq, Repr, Inhabited

/-- F3 with the engines family's modifier (04 R99): `x` is bits [37:32]. -/
structure EngF where
  hd : Hd
  d : Reg
  a : Reg
  b : Reg
  c : Reg
  que : BitVec 3
  trapm : Bool
  rlx : Bool
  tmo : Bool
  cone : BitVec 7
  x : BitVec 6
  imm : BitVec 32
  deriving DecidableEq, Repr, Inhabited

/-- F3 with the system family's modifier (04 R99): `x` is bits [50:44], `sysn` bits [43:32]. -/
structure SysF where
  hd : Hd
  d : Reg
  a : Reg
  b : Reg
  c : Reg
  x : BitVec 7
  sysn : BitVec 12
  imm : BitVec 32
  deriving DecidableEq, Repr, Inhabited

/-- FL, the format of LI (04 R97). -/
structure FlF where
  hd : Hd
  d : Reg
  modl : BitVec 8
  imm : BitVec 64
  deriving DecidableEq, Repr, Inhabited

/-- FB, the format of JMP, CALL, LOOP and BR (04 R97). -/
structure FbF where
  hd : Hd
  a : Reg
  b : Reg
  link : Bool
  off : BitVec 61
  slot : BitVec 3
  deriving DecidableEq, Repr, Inhabited

/-- One entry of a transfer plan (13 R318). -/
structure PlanEntry where
  src : Word
  dst : Word
  len : Nat
  per : Nat
  off : Nat
  acc : Bool
  dev : Nat
  clus : Nat
  deriving DecidableEq, Repr, Inhabited

/-- A pin range of a compact (13 R317). -/
structure PinRange where
  va : Nat
  pages : Nat
  clus : Nat
  deriving DecidableEq, Repr, Inhabited

/-- An element of a CPYR on its way to another device (10 R255): its bit address, width and code, and for an accumulate
its format and rounding mode. -/
structure WireElem where
  bit : Nat
  w : Nat
  code : Nat
  acc : Option (Nat × Nat)
  deriving DecidableEq, Repr, Inhabited

/-- What the devices of a compact tell one another in Signing (13 R319-R324, R334; assumption 26): the leader asks, a device reports
its own status (13 R319, R322), the leader gives the one that all receive, with the receiver's number of the compact, and an
abort goes from and to the leader while the devices do not know one another's numbers. -/
inductive SignKind where
  | ask
  | report (status : Nat)
  | result (rcv status : Nat)
  | abort (reason gtile : Nat) (cycle : Word)
  deriving DecidableEq, Repr, Inhabited

/-- A message of Signing, or a piece of one: `comp` is the sender's number of the compact, `ctl`, `devs` and `masks` are what its
structures say, `plans` and `pins` the plan and pin entries of the exchange, and `peers` the devices' numbers of the compact. -/
structure SignMsg where
  kind : SignKind
  comp : Nat
  ctl : Word := 0
  devs : List Nat := []
  masks : List (BitVec 512) := []
  plans : List (Nat × PlanEntry) := []
  pins : List PinRange := []
  peers : List (Nat × Nat) := []
  deriving DecidableEq, Repr, Inhabited

/-- What another device's Ultra Ethernet packet carries (20 R393, 13 R333). `cid` is the cone number within its
cluster, `dom` the sender's domain; the elements of `cpyrData` are those from `first` of a copy of `total`. `sign` is piece `i` of
the `n` pieces of message `msg` of Signing. In the others `comp` is the receiving device's number of the compact, which it gives to
no other compact; they report the end of a phase to the leader, or carry the leader's word that every device has ended it.
`src` is the sender's number of the compact. -/
inductive PacketBody where
  | message (dom : Nat) (handle : Word) (mr : Nat) (words : List Word) (blk : Bool)
  | arrival (dom clus cid : Nat)
  | signal (dom clus cid : Nat)
  | cpyrData (dom clus party : Nat) (elems : List WireElem) (cone : Option Word) (first total : Nat)
  | decrement (dom clus cid bytes : Nat)
  | planData (comp : Nat) (clus : Nat) (va : Word) (bytes : List Byte) (acc : Bool)
  | sign (msg i n : Nat) (m : SignMsg)
  | signConverted (comp : Nat)
  | arrivalReport (comp : Nat) (step : Word) (stepped : Bool) (dissolver : Option Nat) (ckpt : Bool)
  | transferStart (comp : Nat) (final ckpt : Bool)
  | boundaryReport (comp : Nat)
  | commitReport (comp : Nat)
  | release (comp : Nat) (stop : Bool)
  | dissolved (comp : Nat)
  | abortTok (comp src reason gtile : Nat)
  | abortStep (comp : Nat) (step : Option Word)
  | abortGo (comp src reason gtile : Nat) (cycle : Word) (agreed : Option Word)
  | aborted (comp src : Nat)
  | stopTok (comp : Nat) (done : Bool)
  | resumeTok (comp : Nat) (done : Bool)
  deriving DecidableEq, Repr, Inhabited

/-- A packet and its transport number; `dev` is the other device (sender of one received, receiver of one sent), and
`clk` what happens-before the sending (11 R287, R296), by the parties of all devices. `after` is the packet that precedes
it in its flow and has not been acknowledged (20 R393). -/
structure Packet where
  num : Nat
  dev : Nat
  clk : List (Nat × Nat)
  body : PacketBody
  after : Option Nat := none
  deriving DecidableEq, Repr, Inhabited

/-- The registers that only a REGISTER_WRITE event names: those without a row of their own (00 R7). -/
inductive PlainReg where
  | tvbase (dom : Nat)
  | ptroot (dom : Nat)
  | hchain (dom i : Nat)
  | bkpt (dom i : Nat)
  | domsel
  | ipc
  | vpc
  | btctl
  | fabthr
  | cohctl
  | uetcfg (p : Nat)
  | uetrto
  | uetretry
  | dqage (die p : Nat)
  | dampctl (die : Nat)
  | xdelay (die : Nat)
  | bootaddr
  | mbtask (mb : Nat)
  deriving DecidableEq, Repr, Inhabited

/-- What a received packet answers (20 R393): its status, and for a CPYR the elements performed, the flags raised, and PW of a
conflict (11 R300). -/
structure Answer where
  status : Nat
  count : Nat := 0
  flags : BitVec 9 := 0
  pw : Bool := false
  deriving DecidableEq, Repr, Inhabited

/-- One constructor for each row of spec/opcode_table.json. -/
inductive Instr where
  -- groups 0x00 to 0x02, 0x04, 0x05: scalar (06 R142-R152)
  | nop (f : ScF)
  | add (f : ScF)
  | sub (f : ScF)
  | mul (f : ScF)
  | mulh (f : ScF)
  | mad (f : ScF)
  | div (f : ScF)
  | rem (f : ScF)
  | min (f : ScF)
  | max (f : ScF)
  | and (f : ScF)
  | or (f : ScF)
  | xor (f : ScF)
  | andn (f : ScF)
  | orn (f : ScF)
  | shl (f : ScF)
  | shr (f : ScF)
  | sar (f : ScF)
  | rol (f : ScF)
  | ror (f : ScF)
  | clz (f : ScF)
  | ctz (f : ScF)
  | popc (f : ScF)
  | brev (f : ScF)
  | bswap (f : ScF)
  | set (f : ScF)
  | sel (f : ScF)
  | sext (f : ScF)
  | zext (f : ScF)
  | lea (f : ScF)
  | bfx (f : ScF)
  | bfi (f : ScF)
  | zord (f : ScF)
  | zdec (f : ScF)
  | mov (f : ScF)
  | li (f : FlF)
  -- groups 0x06 and 0x07: control (06 R153-R157)
  | jmp (f : FbF)
  | call (f : FbF)
  | loop (f : FbF)
  | brEq (f : FbF)
  | brNe (f : FbF)
  | brLtZ64 (f : FbF)
  | brLtI64 (f : FbF)
  | brGeZ64 (f : FbF)
  | brGeI64 (f : FbF)
  | brLeZ64 (f : FbF)
  | brLeI64 (f : FbF)
  | brGtZ64 (f : FbF)
  | brGtI64 (f : FbF)
  | jr (f : ScF)
  | ret (f : ScF)
  | trapi (f : ScF)
  | exit (f : ScF)
  | yield (f : ScF)
  | illegalOpcodeFff (rest : BitVec 84)
  -- groups 0x08 to 0x0E: memory (07)
  | ld (f : MemF)
  | st (f : MemF)
  | ldp (f : MemF)
  | stp (f : MemF)
  | pref (f : MemF)
  | wbl (f : MemF)
  | invl (f : MemF)
  | zerol (f : MemF)
  | pin (f : MemF)
  | unpin (f : MemF)
  | amoAdd (f : MemF)
  | amoAnd (f : MemF)
  | amoOr (f : MemF)
  | amoXor (f : MemF)
  | amoSmin (f : MemF)
  | amoSmax (f : MemF)
  | amoZmin (f : MemF)
  | amoZmax (f : MemF)
  | amoSwap (f : MemF)
  | amoFaddFp32 (f : MemF)
  | amoFmaxFp32 (f : MemF)
  | cas (f : MemF)
  | mcas (f : MemF)
  | fence (f : MemF)
  | iold (f : MemF)
  | iost (f : MemF)
  -- groups 0x10 to 0x1F: vector (08)
  | vadd (f : VecF)
  | vsub (f : VecF)
  | vmul (f : VecF)
  | vfma (f : VecF)
  | vfms (f : VecF)
  | vfnma (f : VecF)
  | vmin (f : VecF)
  | vmax (f : VecF)
  | vabs (f : VecF)
  | vneg (f : VecF)
  | vabsmax (f : VecF)
  | vdiv (f : VecF)
  | vsqrt (f : VecF)
  | vrcp (f : VecF)
  | vrsq (f : VecF)
  | vexp2 (f : VecF)
  | vlog2 (f : VecF)
  | vscale (f : VecF)
  | vclass (f : VecF)
  | vcmp (f : VecF)
  | vsel (f : VecF)
  | vcvt (f : VecF)
  | vqnt (f : VecF)
  | vqntSout (f : VecF)
  | vdqnt (f : VecF)
  | viadd (f : VecF)
  | visub (f : VecF)
  | vimul (f : VecF)
  | vimin (f : VecF)
  | vimax (f : VecF)
  | vand (f : VecF)
  | vor (f : VecF)
  | vxor (f : VecF)
  | vshl (f : VecF)
  | vshr (f : VecF)
  | vsar (f : VecF)
  | vld (f : VecF)
  | vst (f : VecF)
  | vlds (f : VecF)
  | vgath (f : VecF)
  | vscat (f : VecF)
  | vbcast (f : VecF)
  | vext (f : VecF)
  | vins (f : VecF)
  | vperm (f : VecF)
  | vshuf (f : VecF)
  | viota (f : VecF)
  | vred (f : VecF)
  | vscan (f : VecF)
  | vmov (f : VecF)
  | kand (f : VecF)
  | kor (f : VecF)
  | kxor (f : VecF)
  | knot (f : VecF)
  | kpop (f : VecF)
  | kfirst (f : VecF)
  | kmov (f : VecF)
  | agen (f : VecF)
  | qbind (f : VecF)
  | qfree (f : VecF)
  | rep (f : VecF)
  -- groups 0x20 to 0x23: Wheel (09)
  | mldb (f : WhF)
  | mldc (f : WhF)
  | mknot (f : WhF)
  | mlds (f : WhF)
  | mma (f : WhF)
  | mmac (f : WhF)
  | mspl (f : WhF)
  | msdx (f : WhF)
  | msgrad (f : WhF)
  | mrefine (f : WhF)
  | mzeroSag (f : WhF)
  | mzeroBat (f : WhF)
  | mzeroRib (f : WhF)
  | mrd (f : WhF)
  | mwr (f : WhF)
  | mdrain (f : WhF)
  | mstat (f : WhF)
  -- groups 0x24 to 0x29: copies, cones, messages, tasks, compacts (10)
  | cpy (f : EngF)
  | cpyr (f : EngF)
  | cpyqf (f : EngF)
  | sleept (f : EngF)
  | cinit (f : EngF)
  | arrive (f : EngF)
  | arriveW (f : EngF)
  | arriveRmt (f : EngF)
  | expect (f : EngF)
  | cwait (f : EngF)
  | ctest (f : EngF)
  | evsig (f : EngF)
  | evsigRmt (f : EngF)
  | mutexl (f : EngF)
  | mutexu (f : EngF)
  | msend (f : EngF)
  | mtake (f : EngF)
  | mpeek (f : EngF)
  | mwaitf (f : EngF)
  | spawn (f : EngF)
  | join (f : EngF)
  | gang (f : EngF)
  | rinit (f : EngF)
  | rtake (f : EngF)
  | tself (f : EngF)
  | sign (f : EngF)
  | step (f : EngF)
  | dissolve (f : EngF)
  | ckpt (f : EngF)
  | abort (f : EngF)
  -- groups 0x3C and 0x3D: system (10 R282-R286)
  | srd (f : SysF)
  | swr (f : SysF)
  | eret (f : SysF)
  | tlbiDom (f : SysF)
  | tlbiPage (f : SysF)
  | tlbiRange (f : SysF)
  | tlbiAll (f : SysF)
  | preemptTask (f : SysF)
  | preemptGang (f : SysF)
  | preemptCompact (f : SysF)
  | resumeTask (f : SysF)
  | resumeGang (f : SysF)
  | resumeCompact (f : SysF)
  | haltg (f : SysF)
  | salvage (f : SysF)
  -- events of a task's own machinery; `task` is the number of the task's frame (its address ÷ 8,192)
  | uGroupComplete (clus gang n : Nat)
  | asyncCauseTaken (task : Nat)
  | breakpoint (task : Nat)
  | singleStepTrap (task : Nat)
  | fetchParityRefetch (task : Nat)
  | frameLineFetch (task line : Nat)
  | streamGroupRead (task gen : Nat)
  | streamGroupWrite (task gen : Nat)
  -- events of dispatch, gangs, the wire unit and timed waits
  | recordDispatch (tile ctx : Nat)
  | queueAging (die prio : Nat)
  | joinHeldPush (die : Nat)
  | gangWake (gang tile : Nat)
  | gangStart (gang : Nat)
  | wireRequestServe (die idx : Nat)
  | waitDeadline (task : Nat)
  | sleeptExpiry (task : Nat)
  -- events of the Wheel, the damper and the pug engine; `id` is a command's number
  | wheelCommandStart (clus : Nat)
  | wheelCommandComplete (clus : Nat) (array : Bool)
  | damperGrant (clus : Nat)
  | copyStart (clus id : Nat)
  | copyComplete (clus id : Nat)
  | latePromiseExpiry (clus id : Nat)
  | cpyqfFenceComplete (clus id : Nat)
  | pendingByteDecrement (idx : Nat)
  -- events of cones, messages, I/O and MCAS; `idx` counts from the oldest in flight
  | remoteArrival (idx : Nat)
  | remoteSignal (idx : Nat)
  | messageDelivery (id : Nat)
  | messageAck (id : Nat)
  | ioldCompletion (task : Nat) (status : Nat) (data : Word)
  | ioldTimeout (task : Nat)
  | mcasLockGrant (task : Nat)
  -- events of the homes; `line` is a physical address ÷ 128
  | dirRead (clus line : Nat)
  | dirReadForOwnership (clus line : Nat)
  | dirUpgrade (clus line : Nat)
  | dirFarOperation (clus line : Nat)
  | dirWriteback (clus line : Nat)
  | dirInvlEvict (clus line : Nat)
  | forwardedPinAccess (clus pa n : Nat) (wr : Option Word)
  | updatePush (clus pa n : Nat) (data : Word)
  -- events of the fabric and of other devices
  | routerCycle (router : Nat)
  | flitArrival (idx : Nat)
  | throttleWindow (clus : Nat)
  | slfoldWrite (v : Word)
  | foldComplete (die : Nat)
  | homeLossDeclare (die : Nat)
  | uetPacketReceive (p : Packet)
  | uetAckReceive (num : Nat) (answer : Answer)
  | uetRetransmit (num : Nat)
  -- events of compacts
  | signingComplete (comp : Nat)
  | deviceArrivalReport (comp dev : Nat)
  | planWritePerformed (comp : Nat)
  | boundaryBegin (comp : Nat)
  | memberRelease (comp : Nat)
  | dissolvingComplete (comp : Nat)
  | abortToken (comp reason : Nat)
  -- events of power, telemetry and the host
  | cappingWindow (watts : Nat)
  | telemetryRefresh (readings : List (Nat × Nat))
  | pldmGetSensorReading (sensor : Nat)
  | pldmKilnlogRead (die : Nat)
  | pklimitWrite (watts : Nat)
  | bar2Read (peer : Bool) (off n : Nat)
  | bar2Write (peer : Bool) (off : Nat) (bytes : List Byte)
  | hseqWrite (peer : Bool) (mb : Nat) (v : BitVec 32)
  | dconsWrite (peer : Bool) (mb : Nat) (v : BitVec 32)
  | hconsWrite (mb : Nat) (v : BitVec 32)
  | dseqWrite (mb : Nat) (v : BitVec 32)
  | msixUnmask (peer : Bool) (vec : Nat)
  | mbportWrite (mb : Nat) (peer : Bool)
  | bootgo
  | bootVerifyDone
  | coldReset
  | warmReset
  | pcieHotReset (peer : Bool)
  | measurementAppend (type : Word) (digest : List Byte)
  | attestationReport (nonce : List Byte)
  -- writes of registers with a rule of their own, as made by the current task, and of the others
  | devcfgWrite (v : Word)
  | dqringWrite (die prio : Nat) (v : Word)
  | scopeWrite (n : Nat) (v : Word)
  | fpflagsWrite (v : Word)
  | wheelwtWrite (v : Word)
  | wheelFootprintWrite (reg : Nat) (v : Word)
  | wqstatDiscard
  | cfstatAbandon
  | statusWrite (v : Word)
  | uetmapWrite (v : Word)
  | registerWrite (r : PlainReg) (v : Word)
  | ethernetLinkChange (port : Nat) (up : Bool)
  | cleanCopyDrop (clus line : Nat)
  | bar0MailboxWrite (peer : Bool) (mb off : Nat) (bytes : List Byte)
  deriving DecidableEq, Repr, Inhabited

end Sys2Proof
end

