-- ==== Sys2Proof/WellFormed.lean ====
section
/-! DEFINITION. Which field values each instruction accepts: the checks of 04 R94 that a word alone decides, in the
order of its detail codes, from the operand tables of chapters 06 to 10. -/

namespace Sys2Proof

/-- The register classes of the operand tables (06 R136, 08 R187, 10 R247). `none` is a field the instruction does
not use, which must hold the code of s0 (04 R94 detail 2). -/
inductive Cls where
  | none | src | dst | sreg | sOrM | srcK | dstK | mreg | evenS | vr | kr | sc | qo | vrQo | vBind
  deriving DecidableEq, Repr

/-- Whether a class accepts a register (04 R94 detail 3). -/
def Cls.ok : Cls → Reg → Bool
  | .none, _ => true
  | .src, .s _ => true
  | .src, .m _ => true
  | .src, .q n => 4 ≤ n.toNat
  | .dst, .s _ => true
  | .dst, .m _ => true
  | .dst, .q n => n.toNat < 4
  | .sreg, .s _ => true
  | .sOrM, .s _ => true
  | .sOrM, .m _ => true
  | .srcK, .k _ => true
  | .srcK, .s _ => true
  | .srcK, .m _ => true
  | .srcK, .q n => 4 ≤ n.toNat
  | .dstK, .k _ => true
  | .dstK, .s _ => true
  | .dstK, .m _ => true
  | .dstK, .q n => n.toNat < 4
  | .mreg, .m _ => true
  | .evenS, .s n => n.toNat % 2 == 0
  | .vr, .v _ => true
  | .kr, .k _ => true
  | .sc, .s _ => true
  | .sc, .q n => n.toNat < 4
  | .qo, .q n => 4 ≤ n.toNat
  | .vrQo, .v _ => true
  | .vrQo, .q n => 4 ≤ n.toNat
  | .vBind, .v n => 24 ≤ n.toNat
  | _, _ => false

/-- The code of an unused register field (04 R91). -/
abbrev Reg.zero : Reg := .s 0

/-- An unused field names s0. -/
def Cls.unusedOk (c : Cls) (r : Reg) : Bool := c != .none || r == Reg.zero

def Reg.isS : Reg → Bool
  | .s _ => true
  | _ => false

def Reg.isMOrQ : Reg → Bool
  | .m _ => true
  | .q _ => true
  | _ => false

def Reg.isK : Reg → Bool
  | .k _ => true
  | _ => false

/-- The first failing detail among 2, 3 and 4 (04 R94). -/
def judge (d2 d3 d4 : Bool) : Option Nat :=
  if !d2 then some 2 else if !d3 then some 3 else if !d4 then some 4 else none

/-- The static part of 04 R100 and 06 R140. -/
def uniOk (has : Bool) (hd : Hd) (d : Reg) (regs : List Reg) : Bool :=
  !hd.u || (has && hd.pm == 0 && !hd.pn && d.isS && regs.all fun r => !r.isMOrQ)

/-- What of the scalar family's fields an instruction uses (06, "Fields not shown are zero"). -/
structure ScUse where
  d : Cls := .none
  a : Cls := .none
  b : Cls := .none
  c : Cls := .none
  immB : Bool := false
  imm : Bool := false
  ty : List Nat := [0]
  cond : Bool := false
  x : Bool := true
  uni : Bool := false

def allTy : List Nat := [0, 1, 2, 3, 4, 5, 6, 7]

/-- 06 R136, R138, R140. `u.x` says whether the instruction-specific bits hold an accepted value. -/
def ScF.judge (f : ScF) (u : ScUse) : Option Nat :=
  let d2 := u.x && u.d.unusedOk f.d && u.a.unusedOk f.a && u.b.unusedOk f.b && u.c.unusedOk f.c
    && (!f.ib || (u.immB && f.b == Reg.zero))
    && (!f.iz || f.ib || (u.imm && !u.immB && u.uni))
    && (f.ib || u.imm || f.imm == 0)
    && u.ty.contains f.ty.toNat
    && (if u.cond then f.cond.toNat ≤ 5 else f.cond == 0)
  let d3 := u.d.ok f.d && u.a.ok f.a && (f.ib || u.b.ok f.b) && u.c.ok f.c
  Sys2Proof.judge d2 d3 (uniOk u.uni f.hd f.d [f.d, f.a, f.b, f.c])

/-- `op.T d, a, b` or `op.T d, a, imm` (06 R142, R144). -/
def ScF.aluUse (f : ScF) : ScUse :=
  { d := .dst, a := .src, b := .src, immB := true, ty := allTy, x := f.x == 0, uni := true }

def ScF.unUse (f : ScF) (ty : List Nat) : ScUse :=
  { d := .dst, a := .src, ty := ty, x := f.x == 0, uni := true }

/-- The immediate of BFX and BFI (06 R149). -/
def ScF.bfImmOk (f : ScF) : Bool :=
  let pos := f.imm.toNat % 64
  let len := f.imm.toNat / 256 % 128
  !f.ib || (f.imm.toNat < 32768 && f.imm.toNat / 64 % 4 == 0 && 1 ≤ len && len ≤ 64 && pos + len ≤ 64)

/-- M in [41:38], N in [37:34], bit [32] zero (06 R150). -/
def ScF.zOk (f : ScF) : Bool :=
  let m := f.x.toNat / 64
  let n := f.x.toNat / 4 % 16
  2 ≤ m && m ≤ 10 && 2 ≤ n && n ≤ 10 && f.x.toNat % 2 == 0

/-- HI of MOV (06 R151). -/
def ScF.movHiOk (f : ScF) : Bool :=
  f.x == 0 || (f.x == 1 && (f.d.isK != f.a.isK))

/-- What FB's control instructions use (06 R154); the target slot is below 5 (04 R94 detail 2). -/
def FbF.judge (f : FbF) (link : Bool) (a b : Cls) : Option Nat :=
  Sys2Proof.judge (f.link == link && f.slot.toNat < 5 && a.unusedOk f.a && b.unusedOk f.b)
    (a.ok f.a && b.ok f.b) (!f.hd.u)

/-- What of the memory family's fields an instruction uses (07). -/
structure MemUse where
  d : Cls := .none
  a : Cls := .sreg
  b : Cls := .none
  c : Cls := .none
  size : List Nat := [0]
  sgn : Bool := false
  order : List Nat := [0]
  scope : Bool := false
  far : Bool := false
  imm : Bool := true
  ok2 : Bool := true
  uni : Bool := false

/-- 07 R159 to R165: SGN with SIZE 3 is refused, SCOPEN needs SCOPE 5. -/
def MemF.judge (f : MemF) (u : MemUse) : Option Nat :=
  let d2 := u.ok2 && u.d.unusedOk f.d && u.a.unusedOk f.a && u.b.unusedOk f.b && u.c.unusedOk f.c
    && u.size.contains f.size.toNat
    && (!f.sgn || (u.sgn && f.size.toNat < 3))
    && u.order.contains f.order.toNat
    && (if u.scope then f.scope.toNat ≤ 5 else f.scope == 0)
    && (f.scope == 5 || f.scopen == 0)
    && (u.far || !f.far)
    && (u.imm || f.imm == 0)
  let d3 := u.d.ok f.d && u.a.ok f.a && u.b.ok f.b && u.c.ok f.c
  Sys2Proof.judge d2 d3 (uniOk u.uni f.hd f.d [f.d, f.a, f.b, f.c])

/-- ATM, bit [35] of LD and ST (07 R165). -/
def MemF.atm (f : MemF) : Bool := f.x.getLsbD 3

def MemF.amoUse (f : MemF) (fp : Bool) : MemUse :=
  { d := .dst, b := .src, size := if fp then [2] else [2, 3], sgn := !fp, order := [0, 1, 2, 3, 4], scope := true,
    far := true, ok2 := f.x == 0, uni := true }

/-- Widths of the element format codes (04 R104); 0 for a reserved code. -/
def fmtWidth (c : Nat) : Nat :=
  match c with
  | 0 => 32 | 1 => 16 | 2 => 16 | 3 => 8 | 4 => 8 | 5 => 6 | 6 => 6 | 7 => 4 | 8 => 8 | 9 => 8 | 10 => 8 | 11 => 8
  | 16 => 8 | 17 => 16 | 18 => 32 | 19 => 64 | 20 => 8 | 21 => 16 | 22 => 32 | 23 => 64
  | _ => 0

/-- Elements a register holds (08 R191). -/
def fmtCap (c : Nat) : Nat :=
  match fmtWidth c with
  | 4 => 256 | 6 => 128 | 8 => 128 | 16 => 64 | 32 => 32 | 64 => 16
  | _ => 0

def isFloat3 (c : Nat) : Bool := c ≤ 2
def isIntFmt (c : Nat) : Bool := 16 ≤ c && c ≤ 23
def isMxFmt (c : Nat) : Bool := 3 ≤ c && c ≤ 7
def isByteFmt (c : Nat) : Bool := fmtWidth c == 8 || fmtWidth c == 16 || fmtWidth c == 32 || fmtWidth c == 64
/-- Formats that VCVT and converting copies accept (08 R197). -/
def isCvtFmt (c : Nat) : Bool := fmtWidth c != 0 && c != 8 && c != 10 && c != 11
/-- Destinations with a NaN accept NOV (05 R119). -/
def fmtHasNaN (c : Nat) : Bool := c ≤ 4

/-- What of the vector family's fields an instruction uses (08 R192). -/
structure VecUse where
  d : Cls := .none
  a : Cls := .none
  b : Cls := .none
  c : Cls := .none
  sb : Bool := false
  fmt : Bool := true
  fmt2 : Bool := false
  rnd : Bool := false
  zm : Bool := false
  nov : Bool := false
  x : Bool := true
  ok2 : Bool := true
  imm : Bool := true
  pred : Bool := true

/-- 08 R187, R192. `fmt`, `x`, `imm` and `ok2` say whether those fields hold accepted values. -/
def VecF.judge (f : VecF) (u : VecUse) : Option Nat :=
  let d2 := u.ok2 && u.fmt && u.x && u.imm && u.d.unusedOk f.d && u.a.unusedOk f.a && u.b.unusedOk f.b
    && u.c.unusedOk f.c && (u.sb || !f.sb) && (u.fmt2 || f.fmt2 == 0)
    && (if u.rnd then f.rnd.toNat ≤ 4 else f.rnd == 0) && (u.zm || !f.zm) && (u.nov || !f.nov)
    && (u.pred || (f.hd.pm == 0 && !f.hd.pn))
  let d3 := u.d.ok f.d && u.a.ok f.a && (if f.sb then Cls.sc.ok f.b else u.b.ok f.b) && u.c.ok f.c
  Sys2Proof.judge d2 d3 (!f.hd.u)

/-- DBASE only with DITHER, PART below `parts` (08 R192, R197). -/
def VecF.dbaseOk (f : VecF) (parts : Nat) : Bool :=
  f.imm.toNat < 32768 && (f.imm.toNat % 4096 == 0 || f.rnd == 4) && f.imm.toNat / 4096 < parts

/-- Number of parts of a conversion, and whether it is at most 8 (08 R197). -/
def cvtParts (s d : Nat) : Nat :=
  if fmtCap s = 0 ∨ fmtCap d = 0 then 0 else Nat.max (fmtCap s) (fmtCap d) / Nat.min (fmtCap s) (fmtCap d)

def VecF.fc (f : VecF) : Nat := f.fmt.toNat
def VecF.fc2 (f : VecF) : Nat := f.fmt2.toNat

def VecF.binUse (f : VecF) (c : Cls) : VecUse :=
  { d := .vr, a := .vr, b := .vr, c := c, sb := true, fmt := isFloat3 f.fc, rnd := true, zm := true, x := f.x == 0,
    imm := f.dbaseOk 1 }
def VecF.unUse (f : VecF) : VecUse :=
  { d := .vr, a := .vr, fmt := isFloat3 f.fc, rnd := true, zm := true, x := f.x == 0, imm := f.dbaseOk 1 }
def VecF.exactBinUse (f : VecF) : VecUse :=
  { d := .vr, a := .vr, b := .vr, sb := true, fmt := isFloat3 f.fc, zm := true, x := f.x == 0, imm := f.imm == 0 }
def VecF.intUse (f : VecF) (x : Bool) : VecUse :=
  { d := .vr, a := .vr, b := .vr, sb := true, fmt := isIntFmt f.fc, zm := true, x := x, imm := f.imm == 0 }
def VecF.kUse (f : VecF) (d b : Cls) (zm : Bool) : VecUse :=
  { d := d, a := .kr, b := b, fmt := f.fmt == 0, zm := zm, x := f.x == 0, imm := f.imm == 0 }
def VecF.cvtOk (f : VecF) (s d : Nat) : Bool :=
  let r := cvtParts s d
  1 ≤ r && r ≤ 8 && f.dbaseOk r && (d != 9 || f.rnd == 0) && (!f.nov || fmtHasNaN d)

/-- What of the Wheel family's fields an instruction uses (09 R227). -/
structure WhUse where
  a : Cls := .none
  b : Cls := .none
  c : Cls := .none
  fmta : Bool := true
  fmtb : Bool := true
  acc : Bool := false
  p24 : Bool := false
  x : Bool := true
  imm : Bool := true
  uni : Bool := false

def WhF.judge (f : WhF) (u : WhUse) : Option Nat :=
  let d2 := Cls.none.unusedOk f.d && u.a.unusedOk f.a && u.b.unusedOk f.b && u.c.unusedOk f.c && u.fmta && u.fmtb
    && (u.acc || !f.acc) && (u.p24 || !f.p24) && u.x && u.imm
  let d3 := u.a.ok f.a && u.b.ok f.b && u.c.ok f.c
  Sys2Proof.judge d2 d3 (uniOk u.uni f.hd f.d [f.a, f.b, f.c])

/-- The FMTA and FMTB columns of 09 R230. -/
def mmaFmtaOk (c : Nat) : Bool := [7, 5, 6, 3, 4, 1, 2].contains c
def mmaFmtbOk (c : Nat) : Bool := [7, 5, 6, 3, 4, 9, 1, 2].contains c

def WhF.mmaUse (f : WhF) (uni : Bool) : WhUse :=
  { a := .sreg, b := .src, c := .src, fmta := mmaFmtaOk f.fmta.toNat, fmtb := mmaFmtbOk f.fmtb.toNat, acc := true,
    p24 := true, x := f.x.toNat < 4, imm := f.imm == 0, uni := uni }
def WhF.splineUse (f : WhF) (b : Cls) : WhUse :=
  { a := .sreg, b := b, c := .src, fmta := f.fmta == 0, fmtb := f.fmtb == 0, acc := true, x := f.x == 0,
    imm := f.imm.toNat < 2 ^ 24 }
def WhF.plainUse (f : WhF) (a b c : Cls) (x imm uni : Bool) : WhUse :=
  { a := a, b := b, c := c, fmta := f.fmta == 0, fmtb := f.fmtb == 0, x := x, imm := imm, uni := uni }

/-- What of the engines family's fields an instruction uses (10). -/
structure EngUse where
  d : Cls := .none
  a : Cls := .none
  b : Cls := .none
  c : Cls := .none
  que : Bool := false
  trapm : Bool := false
  rlx : Bool := false
  tmo : Bool := false
  cone : Bool := false
  x : Bool := true
  imm : Bool := true
  ok2 : Bool := true
  uni : Bool := false

def EngF.judge (f : EngF) (u : EngUse) : Option Nat :=
  let d2 := u.ok2 && u.d.unusedOk f.d && u.a.unusedOk f.a && u.b.unusedOk f.b && u.c.unusedOk f.c
    && (u.que || f.que == 0) && (u.trapm || !f.trapm) && (u.rlx || !f.rlx) && (u.tmo || !f.tmo)
    && (u.cone || f.cone == 0) && u.x && u.imm
  let d3 := u.d.ok f.d && u.a.ok f.a && u.b.ok f.b && u.c.ok f.c
  Sys2Proof.judge d2 d3 (uniOk u.uni f.hd f.d [f.d, f.a, f.b, f.c])

/-- CTILE [37:35], CSEL [34], CN [33], W or PBSEL [33], RMT or CNT [32] (10 R252, R260). -/
def EngF.ctile (f : EngF) : Nat := f.x.toNat / 8
def EngF.csel (f : EngF) : Bool := f.x.getLsbD 2
def EngF.bit33 (f : EngF) : Bool := f.x.getLsbD 1
def EngF.bit32 (f : EngF) : Bool := f.x.getLsbD 0
/-- CSEL = 0 needs CTILE zero (10 R252). -/
def EngF.tileOk (f : EngF) : Bool := f.csel || f.ctile == 0
def EngF.noCone (f : EngF) : Bool := f.cone == 0 && f.x.toNat / 4 == 0
/-- The completion cone of the copy instructions: with CN = 0 its fields are zero (10 R252). -/
def EngF.cnOk (f : EngF) : Bool := !f.bit32 && f.tileOk && (f.bit33 || f.noCone)
/-- TMO = 0 needs c zero (10 R260). -/
def EngF.cTmo (f : EngF) : Cls := if f.tmo then .src else .none
/-- MR and N of MSEND (10 R270). -/
def EngF.blk (f : EngF) : Bool := f.x.getLsbD 5
def EngF.xdev (f : EngF) : Bool := f.x.getLsbD 4
def EngF.mr (f : EngF) : Nat := f.x.toNat % 16
def EngF.words (f : EngF) : Nat := if f.blk then f.imm.toNat % 16 + 1 else 1
def EngF.msendOk (f : EngF) : Bool :=
  (if f.blk then f.imm.toNat < 16 else f.imm == 0) && f.mr + f.words ≤ 16

/-- What of the system family's fields an instruction uses (10 R282). -/
structure SysUse where
  d : Cls := .none
  a : Cls := .none
  b : Cls := .none
  c : Cls := .none
  x : Bool := true
  sysn : Bool := true
  uni : Bool := false

def SysF.judge (f : SysF) (u : SysUse) : Option Nat :=
  let d2 := u.d.unusedOk f.d && u.a.unusedOk f.a && u.b.unusedOk f.b && u.c.unusedOk f.c && u.x && u.sysn && f.imm == 0
  let d3 := u.d.ok f.d && u.a.ok f.a && u.b.ok f.b && u.c.ok f.c
  Sys2Proof.judge d2 d3 (uniOk u.uni f.hd f.d [f.d, f.a, f.b, f.c])

/-- The system registers that exist (01 R24, 09 R225, 20 R385, 21 R396). -/
def sysnExists (n : Nat) : Bool :=
  n ≤ 6 || (8 ≤ n && n ≤ 0x19) || (0x20 ≤ n && n ≤ 0x2F)
  || (0x100 ≤ n && n ≤ 0x102) || (0x108 ≤ n && n ≤ 0x112) || n == 0x118 || n == 0x119
  || (0x120 ≤ n && n ≤ 0x123) || n == 0x128 || n == 0x129
  || (0x200 ≤ n && n ≤ 0x203) || (0x208 ≤ n && n ≤ 0x20B) || (0x210 ≤ n && n ≤ 0x227) || (0x230 ≤ n && n ≤ 0x247)
  || (0x300 ≤ n && n ≤ 0x303) || n == 0x310 || n == 0x311 || (0x320 ≤ n && n ≤ 0x32A)

/-- The system registers whose Access is RO: an SWR naming one raises detail 2 (01 R24, 10 R283). -/
def sysnReadOnly (n : Nat) : Bool :=
  n ≤ 6 || (8 ≤ n && n ≤ 0xF) || (0x13 ≤ n && n ≤ 0x16) || n == 0x18
  || n == 0x110 || n == 0x111 || n == 0x118 || n == 0x119 || n == 0x129
  || (0x209 ≤ n && n ≤ 0x20B) || (0x210 ≤ n && n ≤ 0x227) || (0x230 ≤ n && n ≤ 0x247)
  || n == 0x301 || n == 0x303 || n == 0x311

/-- Bounds of the unit numbers an event names (01 R13). -/
def evOk (b : Bool) : Option Nat := if b then none else some 0

/-- The first failing check of an instruction's fields: `none` when it is well formed. ZM and NOV are rejected with SOUT (08 R198;
assumption 107). -/
def Instr.check : Instr → Option Nat
  | .nop f => if f.hd == ⟨false, 0, false⟩ then f.judge { x := f.x == 0 } else some 2
  | .add f => f.judge f.aluUse
  | .sub f => f.judge f.aluUse
  | .mul f => f.judge f.aluUse
  | .mulh f => f.judge f.aluUse
  | .mad f => f.judge { f.aluUse with c := .src }
  | .div f => f.judge f.aluUse
  | .rem f => f.judge f.aluUse
  | .min f => f.judge f.aluUse
  | .max f => f.judge f.aluUse
  | .and f => f.judge f.aluUse
  | .or f => f.judge f.aluUse
  | .xor f => f.judge f.aluUse
  | .andn f => f.judge f.aluUse
  | .orn f => f.judge f.aluUse
  | .shl f => f.judge f.aluUse
  | .shr f => f.judge f.aluUse
  | .sar f => f.judge f.aluUse
  | .rol f => f.judge f.aluUse
  | .ror f => f.judge f.aluUse
  | .clz f => f.judge (f.unUse allTy)
  | .ctz f => f.judge (f.unUse allTy)
  | .popc f => f.judge (f.unUse allTy)
  | .brev f => f.judge (f.unUse allTy)
  | .bswap f => f.judge (f.unUse allTy)
  | .set f => f.judge { f.aluUse with cond := true }
  | .sel f => f.judge { f.aluUse with c := .src, ty := [0] }
  | .sext f => f.judge (f.unUse [0, 1, 2])
  | .zext f => f.judge (f.unUse [4, 5, 6])
  | .lea f => f.judge { d := .dst, a := .src, b := .src, imm := true, x := f.x.toNat < 8, uni := true }
  | .bfx f => f.judge { f.aluUse with ty := [3, 7], x := f.x == 0 && f.bfImmOk }
  | .bfi f => f.judge { f.aluUse with c := .src, ty := [0], x := f.x == 0 && f.bfImmOk }
  | .zord f => f.judge { d := .dst, a := .src, b := .src, x := f.zOk, uni := true }
  | .zdec f => f.judge { d := .dst, a := .src, x := f.zOk, uni := true }
  | .mov f => f.judge { d := .dstK, a := .srcK, x := f.movHiOk, uni := true }
  | .li f => Sys2Proof.judge (f.modl == 0) (Cls.dst.ok f.d) (!f.hd.u)
  | .jmp f => f.judge false .none .none
  | .call f => f.judge true .sreg .none
  | .loop f => f.judge false .sreg .none
  | .brEq f => f.judge false .sOrM .sOrM
  | .brNe f => f.judge false .sOrM .sOrM
  | .brLtZ64 f => f.judge false .sOrM .sOrM
  | .brLtI64 f => f.judge false .sOrM .sOrM
  | .brGeZ64 f => f.judge false .sOrM .sOrM
  | .brGeI64 f => f.judge false .sOrM .sOrM
  | .brLeZ64 f => f.judge false .sOrM .sOrM
  | .brLeI64 f => f.judge false .sOrM .sOrM
  | .brGtZ64 f => f.judge false .sOrM .sOrM
  | .brGtI64 f => f.judge false .sOrM .sOrM
  | .jr f => f.judge { d := .sreg, a := .sOrM, x := f.x == 0 }
  | .ret f => f.judge { a := .sOrM, x := f.x == 0 }
  | .trapi f => f.judge { imm := true, x := f.x == 0 }
  | .exit f => f.judge { x := f.x == 0 }
  | .yield f => f.judge { x := f.x == 0 }
  | .illegalOpcodeFff _ => none
  | .ld f => f.judge
      { d := .dst, size := [0, 1, 2, 3], sgn := true, order := (if f.atm then [0, 1, 4] else [0]), scope := f.atm,
        ok2 := f.x.toNat % 8 == 0, uni := true }
  | .st f => f.judge
      { b := .src, size := [0, 1, 2, 3], order := (if f.atm then [0, 2, 4] else [0]), scope := f.atm,
        ok2 := f.x.toNat % 8 == 0 }
  | .ldp f => f.judge { d := .dst, c := .dst, size := [4], ok2 := f.x == 0 && (f.d != f.c || f.d == Reg.zero) }
  | .stp f => f.judge { b := .src, c := .src, size := [4], ok2 := f.x == 0 }
  | .pref f => f.judge { ok2 := f.x.toNat % 8 == 0 }
  | .wbl f => f.judge { ok2 := f.x == 0 }
  | .invl f => f.judge { ok2 := f.x == 0 }
  | .zerol f => f.judge { ok2 := f.x == 0 }
  | .pin f => f.judge { d := .dst, ok2 := f.x == 0, uni := true }
  | .unpin f => f.judge { d := .dst, ok2 := f.x == 0, uni := true }
  | .amoAdd f => f.judge (f.amoUse false)
  | .amoAnd f => f.judge (f.amoUse false)
  | .amoOr f => f.judge (f.amoUse false)
  | .amoXor f => f.judge (f.amoUse false)
  | .amoSmin f => f.judge (f.amoUse false)
  | .amoSmax f => f.judge (f.amoUse false)
  | .amoZmin f => f.judge (f.amoUse false)
  | .amoZmax f => f.judge (f.amoUse false)
  | .amoSwap f => f.judge (f.amoUse false)
  | .amoFaddFp32 f => f.judge (f.amoUse true)
  | .amoFmaxFp32 f => f.judge (f.amoUse true)
  | .cas f => f.judge
      { d := (if f.size == 4 then .evenS else .dst), b := (if f.size == 4 then .evenS else .src),
        c := (if f.size == 4 then .evenS else .src), size := [2, 3, 4], sgn := true, order := [0, 1, 2, 3, 4],
        scope := true, far := true, ok2 := f.x == 0, uni := f.size != 4 }
  | .mcas f => f.judge { d := .dst, order := [0, 1, 2, 3, 4], scope := true, ok2 := f.x == 0, uni := true }
  | .fence f => f.judge { a := .none, order := [1, 2, 3, 4], scope := true, imm := false, ok2 := f.x.toNat < 2 }
  | .iold f => f.judge { d := .dst, size := [0, 1, 2, 3], sgn := true, order := [0, 1], ok2 := f.x == 0 }
  | .iost f => f.judge { b := .src, size := [0, 1, 2, 3], order := [0, 2], ok2 := f.x == 0 }
  | .vadd f => f.judge (f.binUse .none)
  | .vsub f => f.judge (f.binUse .none)
  | .vmul f => f.judge (f.binUse .none)
  | .vfma f => f.judge (f.binUse .vr)
  | .vfms f => f.judge (f.binUse .vr)
  | .vfnma f => f.judge (f.binUse .vr)
  | .vmin f => f.judge f.exactBinUse
  | .vmax f => f.judge f.exactBinUse
  | .vabs f => f.judge { f.exactBinUse with b := .none, sb := false }
  | .vneg f => f.judge { f.exactBinUse with b := .none, sb := false }
  | .vabsmax f => f.judge f.exactBinUse
  | .vdiv f => f.judge (f.binUse .none)
  | .vsqrt f => f.judge f.unUse
  | .vrcp f => f.judge f.unUse
  | .vrsq f => f.judge f.unUse
  | .vexp2 f => f.judge f.unUse
  | .vlog2 f => f.judge f.unUse
  | .vscale f => f.judge (f.binUse .none)
  | .vclass f => f.judge { f.exactBinUse with b := .none, sb := false }
  | .vcmp f => f.judge
      { f.exactBinUse with
        d := .kr,
        fmt := isFloat3 f.fc || isIntFmt f.fc,
        x := !(isIntFmt f.fc && 6 ≤ f.x.toNat) }
  | .vsel f => f.judge { f.exactBinUse with c := .kr, fmt := isByteFmt f.fc }
  | .vcvt f => f.judge
      { d := .vr, a := .vr, fmt := isCvtFmt f.fc && isCvtFmt f.fc2, fmt2 := true, rnd := true, zm := true,
        nov := true, x := f.x == 0, imm := f.cvtOk f.fc f.fc2 }
  | .vqnt f => f.judge
      { d := .vr, a := .vr, b := .sc, fmt := isFloat3 f.fc && (isMxFmt f.fc2 || f.fc2 == 10 || f.fc2 == 11),
        fmt2 := true, rnd := true, zm := true, nov := true, x := f.x == 0, imm := f.cvtOk f.fc f.fc2 }
  | .vqntSout f => f.judge
      { d := .qo, b := .sc, fmt := isFloat3 f.fc && (isMxFmt f.fc2 || f.fc2 == 10 || f.fc2 == 11), fmt2 := true,
        x := f.x == 1, imm := f.imm == 0 }
  | .vdqnt f => f.judge
      { d := .vr, a := .vr, b := .sc,
        fmt := (isMxFmt f.fc2 && isFloat3 f.fc) || ((f.fc2 == 10 || f.fc2 == 11) && f.fc == 0 && f.rnd == 0),
        fmt2 := true, rnd := true, zm := true, nov := true, x := f.x == 0, imm := f.cvtOk f.fc2 f.fc }
  | .viadd f => f.judge (f.intUse (f.x.toNat < 2))
  | .visub f => f.judge (f.intUse (f.x.toNat < 2))
  | .vimul f => f.judge (f.intUse (f.x == 0 || f.x == 2))
  | .vimin f => f.judge (f.intUse (f.x == 0))
  | .vimax f => f.judge (f.intUse (f.x == 0))
  | .vand f => f.judge (f.intUse (f.x == 0))
  | .vor f => f.judge (f.intUse (f.x == 0))
  | .vxor f => f.judge (f.intUse (f.x == 0))
  | .vshl f => f.judge (f.intUse (f.x == 0))
  | .vshr f => f.judge (f.intUse (f.x == 0))
  | .vsar f => f.judge (f.intUse (f.x == 0))
  | .vld f => f.judge { d := .vr, a := .sreg, fmt := isByteFmt f.fc, zm := true, x := f.x == 0 }
  | .vst f => f.judge { a := .sreg, b := .vr, fmt := isByteFmt f.fc, x := f.x == 0 }
  | .vlds f => f.judge { d := .vr, a := .sreg, fmt := isByteFmt f.fc, zm := true, x := f.x == 0 }
  | .vgath f => f.judge { d := .vr, a := .sreg, b := .vr, fmt := fmtWidth f.fc == 32 || fmtWidth f.fc == 64, zm := true }
  | .vscat f => f.judge { a := .sreg, b := .vr, c := .vr, fmt := fmtWidth f.fc == 32 || fmtWidth f.fc == 64 }
  | .vbcast f => f.judge { d := .vr, b := .sc, fmt := fmtWidth f.fc != 0, zm := true, x := f.x == 0, imm := f.imm == 0 }
  | .vext f => f.judge { d := .qo, a := .vr, fmt := fmtWidth f.fc != 0, x := f.x == 0, imm := f.imm.toNat < fmtCap f.fc }
  | .vins f => f.judge
      { d := .vr, b := .sc, fmt := fmtWidth f.fc != 0, zm := true, x := f.x == 0,
        imm := f.imm.toNat < fmtCap f.fc }
  | .vperm f => f.judge { d := .vr, a := .vr, b := .vr, fmt := isByteFmt f.fc, zm := true, x := f.x == 0, imm := f.imm == 0 }
  | .vshuf f => f.judge
      { d := .vr, a := .vr, b := .vr, fmt := isByteFmt f.fc, zm := true, x := f.x.toNat ≤ 4,
        imm := if f.x == 4 then f.imm.toNat ≤ fmtCap f.fc else f.imm == 0 }
  | .viota f => f.judge { d := .vr, b := .sc, fmt := isIntFmt f.fc, zm := true, x := f.x == 0, imm := f.imm == 0 }
  | .vred f => f.judge
      { d := .vrQo, a := .vr, fmt := (isFloat3 f.fc && f.x.toNat ≤ 3) || (isIntFmt f.fc && f.x != 3 && f.x != 7),
        imm := f.imm == 0 }
  | .vscan f => f.judge
      { d := .vr, a := .vr, zm := true,
        fmt := (isFloat3 f.fc && f.x.toNat ≤ 2) || (isIntFmt f.fc && f.x != 3 && f.x != 7), imm := f.imm == 0 }
  | .vmov f => f.judge { d := .vr, a := .vr, fmt := isByteFmt f.fc, zm := true, x := f.x == 0, imm := f.imm == 0 }
  | .kand f => f.judge (f.kUse .kr .kr true)
  | .kor f => f.judge (f.kUse .kr .kr true)
  | .kxor f => f.judge (f.kUse .kr .kr true)
  | .knot f => f.judge (f.kUse .kr .none true)
  | .kpop f => f.judge (f.kUse .qo .none false)
  | .kfirst f => f.judge (f.kUse .qo .none false)
  | .kmov f => f.judge (f.kUse .kr .none true)
  | .agen f => f.judge { a := .sreg, fmt := f.fmt == 0, pred := false }
  | .qbind f => f.judge { d := .vBind, fmt := f.fmt == 0, imm := f.imm == 0, pred := false }
  | .qfree f => f.judge { d := .vBind, fmt := f.fmt == 0, x := f.x == 0, imm := f.imm == 0, pred := false }
  | .rep f => f.judge
      { a := .sc, fmt := f.fmt == 0, x := f.x == 0, imm := f.imm.toNat < 512 && f.imm.toNat / 16 < 24,
        pred := false }
  | .mldb f => f.judge { f.mmaUse true with acc := false, x := f.x == 0 }
  | .mldc f => f.judge (f.plainUse .sreg .none .src (f.x == 0)
      (f.imm.toNat < 8192 && f.imm.toNat / 32 % 8 == 0) true)
  | .mknot f => f.judge (f.plainUse .sreg .src .none (f.x.toNat < 24) (f.imm == 0) true)
  | .mlds f => f.judge (f.plainUse .sreg .none .src (f.x == 0) (f.imm.toNat < 65536) true)
  | .mma f => f.judge (f.mmaUse false)
  | .mmac f => f.judge (f.mmaUse true)
  | .mspl f => f.judge (f.splineUse .none)
  | .msdx f => f.judge (f.splineUse .src)
  | .msgrad f => f.judge (f.splineUse .src)
  | .mrefine f => f.judge (f.plainUse .none .none .src (f.x.toNat < 24) (f.imm == 0) true)
  | .mzeroSag f => f.judge (f.plainUse .none .none .src (f.x == 0) (f.imm == 0) true)
  | .mzeroBat f => f.judge (f.plainUse .none .none .src (f.x == 1) (f.imm.toNat < 128) true)
  | .mzeroRib f => f.judge (f.plainUse .none .none .src (f.x == 2) (f.imm.toNat < 65536) true)
  | .mrd f => f.judge
      { a := .sreg, b := .src, c := .src, fmta := f.fmta.toNat ≤ 7, fmtb := f.fmtb == 0,
        x := f.x.toNat < 32 && f.x.toNat / 2 % 8 ≤ 4 && (f.x.toNat < 16 || fmtHasNaN f.fmta.toNat),
        imm := f.imm.toNat < 2 ^ 17 }
  | .mwr f => f.judge
      { a := .sreg, b := .src, c := .src, fmta := f.fmta.toNat ≤ 7, fmtb := f.fmtb == 0, acc := true,
        x := f.x == 0, imm := f.imm.toNat < 2 ^ 17 }
  | .mdrain f => f.judge (f.plainUse .none .none .none (f.x == 0) (f.imm == 0) false)
  | .mstat f => f.judge (f.plainUse .sreg .none .none (f.x == 0) (f.imm == 0) false)
  | .cpy f => f.judge { d := .dst, a := .sreg, b := .src, que := true, cone := true, x := f.cnOk }
  | .cpyr f => f.judge { d := .dst, a := .sreg, b := .src, c := .src, que := true, cone := true, x := f.cnOk }
  | .cpyqf f => f.judge { d := .dst, cone := true, x := f.cnOk, imm := f.imm.toNat < 256 && f.imm != 0 }
  | .sleept f => f.judge { a := .src, x := f.x == 0, imm := f.imm == 0 }
  | .cinit f => f.judge
      { a := (if f.x.toNat % 4 == 0 then .src else .none), cone := true, x := f.tileOk && f.x.toNat % 4 != 3,
        imm := f.imm == 0, uni := true }
  | .arrive f => f.judge
      { c := f.cTmo, rlx := true, tmo := true, cone := true, x := f.tileOk && !f.bit33 && !f.bit32,
        imm := f.imm == 0 }
  | .arriveW f => f.judge
      { d := .dst, c := f.cTmo, rlx := true, tmo := true, cone := true, x := f.tileOk && f.bit33 && !f.bit32,
        imm := f.imm == 0 }
  | .arriveRmt f => f.judge { b := .sreg, c := f.cTmo, rlx := true, tmo := true, x := f.x == 1, imm := f.imm == 0 }
  | .expect f => f.judge { a := .src, rlx := true, cone := true, x := f.tileOk && f.x.toNat % 4 == 0, imm := f.imm == 0 }
  | .cwait f => f.judge
      { d := .dst, a := .src, c := f.cTmo, tmo := true, cone := true, x := f.tileOk && f.x.toNat % 4 == 0,
        imm := f.imm == 0 }
  | .ctest f => f.judge { d := .dst, cone := true, x := f.tileOk && !f.bit32, imm := f.imm == 0, uni := true }
  | .evsig f => f.judge { rlx := true, cone := true, x := f.tileOk && f.x.toNat % 4 == 0, imm := f.imm == 0 }
  | .evsigRmt f => f.judge { b := .sreg, rlx := true, x := f.x == 1, imm := f.imm == 0 }
  | .mutexl f => f.judge
      { d := .dst, c := f.cTmo, tmo := true, cone := true, x := f.tileOk && f.x.toNat % 4 == 0,
        imm := f.imm == 0 }
  | .mutexu f => f.judge { cone := true, x := f.tileOk && f.x.toNat % 4 == 0, imm := f.imm == 0 }
  | .msend f => f.judge
      { d := .dst, a := .sreg, b := (if f.blk then .sreg else .src), c := (if f.xdev then .src else .none),
        trapm := true, imm := f.msendOk }
  | .mtake f => f.judge { d := .dst, a := .mreg, x := f.x == 0, imm := f.imm == 0 }
  | .mpeek f => f.judge { d := .dst, a := .mreg, x := f.x == 0, imm := f.imm == 0 }
  | .mwaitf f => f.judge { d := .dst, a := .mreg, c := f.cTmo, tmo := true, x := f.x == 0, imm := f.imm == 0 }
  | .spawn f => f.judge { d := .dst, a := .sreg, trapm := true, x := f.x == 0, uni := true }
  | .join f => f.judge { d := .dst, a := .sreg, b := (if f.bit32 then .src else .none), x := f.x.toNat < 2 }
  | .gang f => f.judge { d := .dst, a := .sreg, trapm := true, x := f.x == 0, uni := true }
  | .rinit f => f.judge { a := .sreg, b := .src, x := f.x == 0 }
  | .rtake f => f.judge
      { d := .dst, b := .src, c := .dst, x := f.x == 0, imm := f.imm == 0, uni := true,
        ok2 := f.d != f.c || f.d == Reg.zero }
  | .tself f => f.judge { d := .dst, x := f.x == 0, imm := f.imm == 0, uni := true }
  | .sign f => f.judge { d := .dst, a := .sreg, x := f.x == 0 }
  | .step f => f.judge { d := .dst, x := f.x == 0, imm := f.imm == 0 }
  | .dissolve f => f.judge { d := .dst, x := f.x == 0, imm := f.imm == 0 }
  | .ckpt f => f.judge { x := f.x == 0, imm := f.imm == 0 }
  | .abort f => f.judge { a := .src, x := f.x == 0, imm := f.imm == 0 }
  | .srd f => f.judge { d := .dst, x := f.x == 0, sysn := sysnExists f.sysn.toNat, uni := true }
  | .swr f => f.judge
      { a := .src, x := f.x == 0, sysn := sysnExists f.sysn.toNat && !sysnReadOnly f.sysn.toNat,
        uni := f.sysn == 0x19 }
  | .eret f => f.judge { x := f.x == 0, sysn := f.sysn == 0 }
  | .tlbiDom f => f.judge { c := .src, x := f.x == 0, sysn := f.sysn == 0 }
  | .tlbiPage f => f.judge { a := .src, c := .src, x := f.x == 1, sysn := f.sysn == 0 }
  | .tlbiRange f => f.judge { a := .src, b := .src, c := .src, x := f.x == 2, sysn := f.sysn == 0 }
  | .tlbiAll f => f.judge { x := f.x == 3, sysn := f.sysn == 0 }
  | .preemptTask f => f.judge { d := .dst, a := .src, x := f.x == 0, sysn := f.sysn == 0 }
  | .preemptGang f => f.judge { d := .dst, a := .src, x := f.x == 1, sysn := f.sysn == 0 }
  | .preemptCompact f => f.judge { d := .dst, a := .src, x := f.x == 2, sysn := f.sysn == 0 }
  | .resumeTask f => f.judge { d := .dst, a := .src, x := f.x == 0, sysn := f.sysn == 0 }
  | .resumeGang f => f.judge { d := .dst, a := .src, x := f.x == 1, sysn := f.sysn == 0 }
  | .resumeCompact f => f.judge { d := .dst, a := .src, x := f.x == 2, sysn := f.sysn == 0 }
  | .haltg f => f.judge { d := .dst, a := .src, x := f.x == 0, sysn := f.sysn == 0 }
  | .salvage f => f.judge { d := .dst, a := .src, b := .src, x := f.x == 0, sysn := f.sysn == 0 }
  | .uGroupComplete clus _ _ => evOk (clus < 512)
  | .asyncCauseTaken _ => none
  | .breakpoint _ => none
  | .singleStepTrap _ => none
  | .fetchParityRefetch _ => none
  | .frameLineFetch _ line => evOk (line < 64)
  | .streamGroupRead _ g => evOk (g < 8)
  | .streamGroupWrite _ g => evOk (g < 8)
  | .recordDispatch tile ctx => evOk (tile < 4096 && ctx < 4)
  | .queueAging die prio => evOk (die < 8 && prio < 16)
  | .joinHeldPush die => evOk (die < 8)
  | .gangWake _ tile => evOk (tile < 4096)
  | .gangStart _ => none
  | .wireRequestServe die _ => evOk (die < 8)
  | .waitDeadline _ => none
  | .sleeptExpiry _ => none
  | .wheelCommandStart clus => evOk (clus < 512)
  | .wheelCommandComplete clus _ => evOk (clus < 512)
  | .damperGrant clus => evOk (clus < 512)
  | .copyStart clus _ => evOk (clus < 512)
  | .copyComplete clus _ => evOk (clus < 512)
  | .latePromiseExpiry clus _ => evOk (clus < 512)
  | .cpyqfFenceComplete clus _ => evOk (clus < 512)
  | .pendingByteDecrement _ => none
  | .remoteArrival _ => none
  | .remoteSignal _ => none
  | .messageDelivery _ => none
  | .messageAck _ => none
  | .ioldCompletion _ status _ => evOk (status < 3)
  | .ioldTimeout _ => none
  | .mcasLockGrant _ => none
  | .dirRead clus _ => evOk (clus < 512)
  | .dirReadForOwnership clus _ => evOk (clus < 512)
  | .dirUpgrade clus _ => evOk (clus < 512)
  | .dirFarOperation clus _ => evOk (clus < 512)
  | .dirWriteback clus _ => evOk (clus < 512)
  | .dirInvlEvict clus _ => evOk (clus < 512)
  | .forwardedPinAccess clus pa n _ => evOk (clus < 512 && pa < 2 ^ 40 && n ≤ 8)
  | .updatePush clus pa n _ => evOk (clus < 512 && pa < 2 ^ 40 && n ≤ 8)
  | .routerCycle _ => none
  | .flitArrival _ => none
  | .throttleWindow clus => evOk (clus < 512)
  | .slfoldWrite _ => none
  | .foldComplete die => evOk (die < 8)
  | .homeLossDeclare die => evOk (die < 8)
  | .uetPacketReceive p => evOk (p.dev < 1024)
  | .uetAckReceive _ _ => none
  | .uetRetransmit _ => none
  | .signingComplete _ => none
  | .deviceArrivalReport _ dev => evOk (dev < 1024)
  | .planWritePerformed _ => none
  | .boundaryBegin _ => none
  | .memberRelease _ => none
  | .dissolvingComplete _ => none
  | .abortToken _ reason => evOk (reason < 65536)
  | .cappingWindow _ => none
  | .telemetryRefresh _ => none
  | .pldmGetSensorReading _ => none
  | .pldmKilnlogRead die => evOk (die < 8)
  | .pklimitWrite _ => none
  | .bar2Read _ off n => evOk (off + n ≤ 2 ^ 40)
  | .bar2Write _ off bytes => evOk (off + bytes.length ≤ 2 ^ 40)
  | .hseqWrite _ mb _ => evOk (mb < 64)
  | .dconsWrite _ mb _ => evOk (mb < 64)
  | .hconsWrite mb _ => evOk (mb < 64)
  | .dseqWrite mb _ => evOk (mb < 64)
  | .msixUnmask _ vec => evOk (vec < 64)
  | .mbportWrite mb _ => evOk (mb < 64)
  | .bootgo => none
  | .bootVerifyDone => none
  | .coldReset => none
  | .warmReset => none
  | .pcieHotReset _ => none
  | .measurementAppend _ digest => evOk (digest.length == 64)
  | .attestationReport nonce => evOk (nonce.length == 64)
  | .devcfgWrite _ => none
  | .dqringWrite die prio _ => evOk (die < 8 && prio < 16)
  | .scopeWrite n _ => evOk (n < 16)
  | .fpflagsWrite _ => none
  | .wheelwtWrite _ => none
  | .wheelFootprintWrite reg _ => evOk (reg < 4)
  | .wqstatDiscard => none
  | .cfstatAbandon => none
  | .statusWrite _ => none
  | .uetmapWrite _ => none
  | .registerWrite _ _ => none
  | .ethernetLinkChange port _ => evOk (port < 8)
  | .cleanCopyDrop clus _ => evOk (clus < 512)
  | .bar0MailboxWrite _ mb off bytes => evOk (mb < 64 && off + bytes.length ≤ 4096)

/-- An instruction is well formed when no check of 04 R94 that its word decides fails. -/
def WellFormed (i : Instr) : Bool := i.check.isNone

end Sys2Proof
end

