-- ==== Sys2Proof/Decode.lean ====
section
/-! DEFINITION. Decoding and encoding of instruction words (04 R87, R94, R96-R99, R105). -/

namespace Sys2Proof

/-- Why a word is not an instruction; each is a detail of the illegal-instruction trap (04 R94). -/
inductive Reject where
  | unassignedOpcode
  | reservedNonzero
  | wrongRegister
  | wrongPrefix
  deriving DecidableEq, Repr

/-- The detail code of a rejection (04 R94). -/
def Reject.detail : Reject → Nat
  | .unassignedOpcode => 1
  | .reservedNonzero => 2
  | .wrongRegister => 3
  | .wrongPrefix => 4

/-- The rejection that a failing check of `Instr.check` stands for. -/
def Reject.ofDetail : Nat → Reject
  | 3 => .wrongRegister
  | 4 => .wrongPrefix
  | _ => .reservedNonzero

/-- The register a 7-bit code names (01 R17). -/
def Reg.ofCode (c : BitVec 7) : Reg :=
  if c.toNat < 64 then .s (c.setWidth 6)
  else if c.toNat < 96 then .v (c.setWidth 5)
  else if c.toNat < 104 then .k (c.setWidth 3)
  else if c.toNat < 120 then .m (BitVec.ofNat 4 (c.toNat - 104))
  else .q (c.setWidth 3)

/-- The code of a register (01 R17). -/
def Reg.code : Reg → BitVec 7
  | .s n => n.setWidth 7
  | .v n => BitVec.ofNat 7 (64 + n.toNat)
  | .k n => BitVec.ofNat 7 (96 + n.toNat)
  | .m n => BitVec.ofNat 7 (104 + n.toNat)
  | .q n => BitVec.ofNat 7 (120 + n.toNat)

/-- Bit `i` of a word as a Bool. -/
def bitOf (w : IWord) (i : Nat) : Bool := w.getLsbD i

def opcOf (w : IWord) : BitVec 12 := w.extractLsb' 84 12
def hdOf (w : IWord) : Hd := { u := bitOf w 83, pm := w.extractLsb' 80 3, pn := bitOf w 79 }
def regAt (w : IWord) (lo : Nat) : Reg := Reg.ofCode (w.extractLsb' lo 7)

/-! F3 puts d at [78:72], a at [71:65], b at [64:58], c at [57:51] and imm32 at [31:0] (04 R97). -/

def ScF.unpack (w : IWord) : ScF :=
  { hd := hdOf w, d := regAt w 72, a := regAt w 65, b := regAt w 58, c := regAt w 51, ib := bitOf w 50,
    ty := w.extractLsb' 47 3, cond := w.extractLsb' 43 4, iz := bitOf w 42, x := w.extractLsb' 32 10,
    imm := w.extractLsb' 0 32 }

def MemF.unpack (w : IWord) : MemF :=
  { hd := hdOf w, d := regAt w 72, a := regAt w 65, b := regAt w 58, c := regAt w 51, size := w.extractLsb' 48 3,
    sgn := bitOf w 47, order := w.extractLsb' 44 3, scope := w.extractLsb' 41 3, scopen := w.extractLsb' 37 4,
    far := bitOf w 36, x := w.extractLsb' 32 4, imm := w.extractLsb' 0 32 }

def VecF.unpack (w : IWord) : VecF :=
  { hd := hdOf w, d := regAt w 72, a := regAt w 65, b := regAt w 58, c := regAt w 51, fmt := w.extractLsb' 46 5,
    fmt2 := w.extractLsb' 41 5, rnd := w.extractLsb' 38 3, zm := bitOf w 37, nov := bitOf w 36, sb := bitOf w 35,
    x := w.extractLsb' 32 3, imm := w.extractLsb' 0 32 }

def WhF.unpack (w : IWord) : WhF :=
  { hd := hdOf w, d := regAt w 72, a := regAt w 65, b := regAt w 58, c := regAt w 51, fmta := w.extractLsb' 46 5,
    fmtb := w.extractLsb' 41 5, acc := bitOf w 40, p24 := bitOf w 39, x := w.extractLsb' 32 7,
    imm := w.extractLsb' 0 32 }

def EngF.unpack (w : IWord) : EngF :=
  { hd := hdOf w, d := regAt w 72, a := regAt w 65, b := regAt w 58, c := regAt w 51, que := w.extractLsb' 48 3,
    trapm := bitOf w 47, rlx := bitOf w 46, tmo := bitOf w 45, cone := w.extractLsb' 38 7, x := w.extractLsb' 32 6,
    imm := w.extractLsb' 0 32 }

def SysF.unpack (w : IWord) : SysF :=
  { hd := hdOf w, d := regAt w 72, a := regAt w 65, b := regAt w 58, c := regAt w 51, x := w.extractLsb' 44 7,
    sysn := w.extractLsb' 32 12, imm := w.extractLsb' 0 32 }

/-- FL: modifier [71:64], imm64 [63:0] (04 R97). -/
def FlF.unpack (w : IWord) : FlF :=
  { hd := hdOf w, d := regAt w 72, modl := w.extractLsb' 64 8, imm := w.extractLsb' 0 64 }

/-- FB: a [78:72], b [71:65], LINK [64], line offset [63:3], target slot [2:0] (04 R97). -/
def FbF.unpack (w : IWord) : FbF :=
  { hd := hdOf w, a := regAt w 72, b := regAt w 65, link := bitOf w 64, off := w.extractLsb' 3 61,
    slot := w.extractLsb' 0 3 }

/-- Groups 0x00 to 0x07 (04 R105). -/
def parseScalar (w : IWord) : Nat → Option Instr
  | 0x000 => some (.nop (ScF.unpack w))
  | 0x001 => some (.add (ScF.unpack w))
  | 0x002 => some (.sub (ScF.unpack w))
  | 0x003 => some (.mul (ScF.unpack w))
  | 0x004 => some (.mulh (ScF.unpack w))
  | 0x005 => some (.mad (ScF.unpack w))
  | 0x006 => some (.div (ScF.unpack w))
  | 0x007 => some (.rem (ScF.unpack w))
  | 0x008 => some (.min (ScF.unpack w))
  | 0x009 => some (.max (ScF.unpack w))
  | 0x040 => some (.and (ScF.unpack w))
  | 0x041 => some (.or (ScF.unpack w))
  | 0x042 => some (.xor (ScF.unpack w))
  | 0x043 => some (.andn (ScF.unpack w))
  | 0x044 => some (.orn (ScF.unpack w))
  | 0x045 => some (.shl (ScF.unpack w))
  | 0x046 => some (.shr (ScF.unpack w))
  | 0x047 => some (.sar (ScF.unpack w))
  | 0x048 => some (.rol (ScF.unpack w))
  | 0x049 => some (.ror (ScF.unpack w))
  | 0x080 => some (.clz (ScF.unpack w))
  | 0x081 => some (.ctz (ScF.unpack w))
  | 0x082 => some (.popc (ScF.unpack w))
  | 0x083 => some (.brev (ScF.unpack w))
  | 0x084 => some (.bswap (ScF.unpack w))
  | 0x085 => some (.set (ScF.unpack w))
  | 0x086 => some (.sel (ScF.unpack w))
  | 0x087 => some (.sext (ScF.unpack w))
  | 0x088 => some (.zext (ScF.unpack w))
  | 0x100 => some (.lea (ScF.unpack w))
  | 0x101 => some (.bfx (ScF.unpack w))
  | 0x102 => some (.bfi (ScF.unpack w))
  | 0x103 => some (.zord (ScF.unpack w))
  | 0x104 => some (.zdec (ScF.unpack w))
  | 0x140 => some (.mov (ScF.unpack w))
  | 0x141 => some (.li (FlF.unpack w))
  | 0x180 => if (FbF.unpack w).link then some (.call (FbF.unpack w)) else some (.jmp (FbF.unpack w))
  | 0x181 => some (.loop (FbF.unpack w))
  | 0x190 => some (.brEq (FbF.unpack w))
  | 0x192 => some (.brNe (FbF.unpack w))
  | 0x194 => some (.brLtZ64 (FbF.unpack w))
  | 0x195 => some (.brLtI64 (FbF.unpack w))
  | 0x196 => some (.brGeZ64 (FbF.unpack w))
  | 0x197 => some (.brGeI64 (FbF.unpack w))
  | 0x198 => some (.brLeZ64 (FbF.unpack w))
  | 0x199 => some (.brLeI64 (FbF.unpack w))
  | 0x19A => some (.brGtZ64 (FbF.unpack w))
  | 0x19B => some (.brGtI64 (FbF.unpack w))
  | 0x1C0 => some (.jr (ScF.unpack w))
  | 0x1C1 => some (.ret (ScF.unpack w))
  | 0x1C2 => some (.trapi (ScF.unpack w))
  | 0x1C3 => some (.exit (ScF.unpack w))
  | 0x1C4 => some (.yield (ScF.unpack w))
  | _ => none

/-- Groups 0x08 to 0x0E (04 R105). -/
def parseMemory (w : IWord) : Nat → Option Instr
  | 0x200 => some (.ld (MemF.unpack w))
  | 0x201 => some (.st (MemF.unpack w))
  | 0x202 => some (.ldp (MemF.unpack w))
  | 0x203 => some (.stp (MemF.unpack w))
  | 0x240 => some (.pref (MemF.unpack w))
  | 0x241 => some (.wbl (MemF.unpack w))
  | 0x242 => some (.invl (MemF.unpack w))
  | 0x243 => some (.zerol (MemF.unpack w))
  | 0x280 => some (.pin (MemF.unpack w))
  | 0x281 => some (.unpin (MemF.unpack w))
  | 0x300 => some (.amoAdd (MemF.unpack w))
  | 0x301 => some (.amoAnd (MemF.unpack w))
  | 0x302 => some (.amoOr (MemF.unpack w))
  | 0x303 => some (.amoXor (MemF.unpack w))
  | 0x304 => some (.amoSmin (MemF.unpack w))
  | 0x305 => some (.amoSmax (MemF.unpack w))
  | 0x306 => some (.amoZmin (MemF.unpack w))
  | 0x307 => some (.amoZmax (MemF.unpack w))
  | 0x308 => some (.amoSwap (MemF.unpack w))
  | 0x309 => some (.amoFaddFp32 (MemF.unpack w))
  | 0x30A => some (.amoFmaxFp32 (MemF.unpack w))
  | 0x340 => some (.cas (MemF.unpack w))
  | 0x341 => some (.mcas (MemF.unpack w))
  | 0x342 => some (.fence (MemF.unpack w))
  | 0x380 => some (.iold (MemF.unpack w))
  | 0x381 => some (.iost (MemF.unpack w))
  | _ => none

/-- Groups 0x10 to 0x1F (04 R105). -/
def parseVector (w : IWord) : Nat → Option Instr
  | 0x400 => some (.vadd (VecF.unpack w))
  | 0x401 => some (.vsub (VecF.unpack w))
  | 0x402 => some (.vmul (VecF.unpack w))
  | 0x403 => some (.vfma (VecF.unpack w))
  | 0x404 => some (.vfms (VecF.unpack w))
  | 0x405 => some (.vfnma (VecF.unpack w))
  | 0x406 => some (.vmin (VecF.unpack w))
  | 0x407 => some (.vmax (VecF.unpack w))
  | 0x408 => some (.vabs (VecF.unpack w))
  | 0x409 => some (.vneg (VecF.unpack w))
  | 0x40A => some (.vabsmax (VecF.unpack w))
  | 0x440 => some (.vdiv (VecF.unpack w))
  | 0x441 => some (.vsqrt (VecF.unpack w))
  | 0x442 => some (.vrcp (VecF.unpack w))
  | 0x443 => some (.vrsq (VecF.unpack w))
  | 0x444 => some (.vexp2 (VecF.unpack w))
  | 0x445 => some (.vlog2 (VecF.unpack w))
  | 0x446 => some (.vscale (VecF.unpack w))
  | 0x480 => some (.vclass (VecF.unpack w))
  | 0x481 => some (.vcmp (VecF.unpack w))
  | 0x482 => some (.vsel (VecF.unpack w))
  | 0x4C0 => some (.vcvt (VecF.unpack w))
  | 0x4C1 => if (VecF.unpack w).x.getLsbD 0 then some (.vqntSout (VecF.unpack w)) else some (.vqnt (VecF.unpack w))
  | 0x4C2 => some (.vdqnt (VecF.unpack w))
  | 0x600 => some (.viadd (VecF.unpack w))
  | 0x601 => some (.visub (VecF.unpack w))
  | 0x602 => some (.vimul (VecF.unpack w))
  | 0x603 => some (.vimin (VecF.unpack w))
  | 0x604 => some (.vimax (VecF.unpack w))
  | 0x640 => some (.vand (VecF.unpack w))
  | 0x641 => some (.vor (VecF.unpack w))
  | 0x642 => some (.vxor (VecF.unpack w))
  | 0x643 => some (.vshl (VecF.unpack w))
  | 0x644 => some (.vshr (VecF.unpack w))
  | 0x645 => some (.vsar (VecF.unpack w))
  | 0x700 => some (.vld (VecF.unpack w))
  | 0x701 => some (.vst (VecF.unpack w))
  | 0x702 => some (.vlds (VecF.unpack w))
  | 0x703 => some (.vgath (VecF.unpack w))
  | 0x704 => some (.vscat (VecF.unpack w))
  | 0x740 => some (.vbcast (VecF.unpack w))
  | 0x741 => some (.vext (VecF.unpack w))
  | 0x742 => some (.vins (VecF.unpack w))
  | 0x743 => some (.vperm (VecF.unpack w))
  | 0x744 => some (.vshuf (VecF.unpack w))
  | 0x745 => some (.viota (VecF.unpack w))
  | 0x746 => some (.vred (VecF.unpack w))
  | 0x747 => some (.vscan (VecF.unpack w))
  | 0x748 => some (.vmov (VecF.unpack w))
  | 0x780 => some (.kand (VecF.unpack w))
  | 0x781 => some (.kor (VecF.unpack w))
  | 0x782 => some (.kxor (VecF.unpack w))
  | 0x783 => some (.knot (VecF.unpack w))
  | 0x784 => some (.kpop (VecF.unpack w))
  | 0x785 => some (.kfirst (VecF.unpack w))
  | 0x786 => some (.kmov (VecF.unpack w))
  | 0x7C0 => some (.agen (VecF.unpack w))
  | 0x7C1 => some (.qbind (VecF.unpack w))
  | 0x7C2 => some (.qfree (VecF.unpack w))
  | 0x7C3 => some (.rep (VecF.unpack w))
  | _ => none

/-- Groups 0x20 to 0x23 (04 R105). -/
def parseWheel (w : IWord) : Nat → Option Instr
  | 0x800 => some (.mldb (WhF.unpack w))
  | 0x801 => some (.mldc (WhF.unpack w))
  | 0x802 => some (.mknot (WhF.unpack w))
  | 0x803 => some (.mlds (WhF.unpack w))
  | 0x840 => some (.mma (WhF.unpack w))
  | 0x841 => some (.mmac (WhF.unpack w))
  | 0x842 => some (.mspl (WhF.unpack w))
  | 0x880 => some (.msdx (WhF.unpack w))
  | 0x881 => some (.msgrad (WhF.unpack w))
  | 0x882 => some (.mrefine (WhF.unpack w))
  | 0x883 =>
      if (WhF.unpack w).x == 1 then some (.mzeroBat (WhF.unpack w)) else
      if (WhF.unpack w).x == 2 then some (.mzeroRib (WhF.unpack w)) else
      some (.mzeroSag (WhF.unpack w))
  | 0x8C0 => some (.mrd (WhF.unpack w))
  | 0x8C1 => some (.mwr (WhF.unpack w))
  | 0x8C2 => some (.mdrain (WhF.unpack w))
  | 0x8C3 => some (.mstat (WhF.unpack w))
  | _ => none

/-- Groups 0x24 to 0x29 (04 R105). -/
def parseEngine (w : IWord) : Nat → Option Instr
  | 0x900 => some (.cpy (EngF.unpack w))
  | 0x901 => some (.cpyr (EngF.unpack w))
  | 0x902 => some (.cpyqf (EngF.unpack w))
  | 0x940 => some (.sleept (EngF.unpack w))
  | 0x980 => some (.cinit (EngF.unpack w))
  | 0x981 =>
      if (EngF.unpack w).bit32 then some (.arriveRmt (EngF.unpack w)) else
      if (EngF.unpack w).bit33 then some (.arriveW (EngF.unpack w)) else
      some (.arrive (EngF.unpack w))
  | 0x982 => some (.expect (EngF.unpack w))
  | 0x983 => some (.cwait (EngF.unpack w))
  | 0x984 => some (.ctest (EngF.unpack w))
  | 0x985 => if (EngF.unpack w).bit32 then some (.evsigRmt (EngF.unpack w)) else some (.evsig (EngF.unpack w))
  | 0x986 => some (.mutexl (EngF.unpack w))
  | 0x987 => some (.mutexu (EngF.unpack w))
  | 0x9C0 => some (.msend (EngF.unpack w))
  | 0x9C1 => some (.mtake (EngF.unpack w))
  | 0x9C2 => some (.mpeek (EngF.unpack w))
  | 0x9C3 => some (.mwaitf (EngF.unpack w))
  | 0xA00 => some (.spawn (EngF.unpack w))
  | 0xA01 => some (.join (EngF.unpack w))
  | 0xA02 => some (.gang (EngF.unpack w))
  | 0xA03 => some (.rinit (EngF.unpack w))
  | 0xA04 => some (.rtake (EngF.unpack w))
  | 0xA05 => some (.tself (EngF.unpack w))
  | 0xA40 => some (.sign (EngF.unpack w))
  | 0xA41 => some (.step (EngF.unpack w))
  | 0xA42 => some (.dissolve (EngF.unpack w))
  | 0xA43 => some (.ckpt (EngF.unpack w))
  | 0xA44 => some (.abort (EngF.unpack w))
  | _ => none

/-- Groups 0x3C and 0x3D (04 R105). -/
def parseSystem (w : IWord) : Nat → Option Instr
  | 0xF00 => some (.srd (SysF.unpack w))
  | 0xF01 => some (.swr (SysF.unpack w))
  | 0xF02 => some (.eret (SysF.unpack w))
  | 0xF03 =>
      if (SysF.unpack w).x == 0 then some (.tlbiDom (SysF.unpack w)) else
      if (SysF.unpack w).x == 1 then some (.tlbiPage (SysF.unpack w)) else
      if (SysF.unpack w).x == 2 then some (.tlbiRange (SysF.unpack w)) else
      some (.tlbiAll (SysF.unpack w))
  | 0xF40 =>
      if (SysF.unpack w).x == 1 then some (.preemptGang (SysF.unpack w)) else
      if (SysF.unpack w).x == 2 then some (.preemptCompact (SysF.unpack w)) else
      some (.preemptTask (SysF.unpack w))
  | 0xF41 =>
      if (SysF.unpack w).x == 1 then some (.resumeGang (SysF.unpack w)) else
      if (SysF.unpack w).x == 2 then some (.resumeCompact (SysF.unpack w)) else
      some (.resumeTask (SysF.unpack w))
  | 0xF42 => some (.haltg (SysF.unpack w))
  | 0xF43 => some (.salvage (SysF.unpack w))
  | _ => none

/-- The instruction that a word's opcode names, its fields taken out and not yet checked (04 R105). -/
def parse (w : IWord) : Option Instr :=
  let o := (opcOf w).toNat
  if o = 0xFFF then some (.illegalOpcodeFff (w.extractLsb' 0 84))
  else if o < 0x200 then parseScalar w o
  else if o < 0x400 then parseMemory w o
  else if o < 0x800 then parseVector w o
  else if o < 0x900 then parseWheel w o
  else if o < 0xF00 then parseEngine w o
  else parseSystem w o

/-- The instruction of a 96-bit word, or the detail that R94 gives it. Total on every word. -/
def decode (w : IWord) : Except Reject Instr :=
  match parse w with
  | none => .error .unassignedOpcode
  | some i =>
    match i.check with
    | none => .ok i
    | some d => .error (Reject.ofDetail d)

/-- Little-endian number of a list of bytes (00 R6). -/
def bytesNat : List Byte → Nat
  | [] => 0
  | b :: r => b.toNat + 256 * bytesNat r

/-- The first 12 bytes of a list as an instruction word (04 R87), with the rest. -/
def decodeBytes (l : List Byte) : Option (Except Reject Instr × List Byte) :=
  if l.length < 12 then none
  else some (decode (BitVec.ofNat 96 (bytesNat (l.take 12))), l.drop 12)

/-! The encoder, written from the same rows of 04 R97 and R99. -/

def b1 (b : Bool) : BitVec 1 := BitVec.ofBool b

/-- Bits [95:79] of every word (04 R96). -/
def packHead (opc : Nat) (hd : Hd) : BitVec 17 := BitVec.ofNat 12 opc ++ b1 hd.u ++ hd.pm ++ b1 hd.pn

/-- F3 with its 19-bit modifier (04 R97). -/
def packF3 (opc : Nat) (hd : Hd) (d a b c : Reg) (modifier : BitVec 19) (imm : BitVec 32) : IWord :=
  packHead opc hd ++ d.code ++ a.code ++ b.code ++ c.code ++ modifier ++ imm

def ScF.pack (opc : Nat) (f : ScF) : IWord :=
  packF3 opc f.hd f.d f.a f.b f.c (b1 f.ib ++ f.ty ++ f.cond ++ b1 f.iz ++ f.x) f.imm
def MemF.pack (opc : Nat) (f : MemF) : IWord :=
  packF3 opc f.hd f.d f.a f.b f.c (f.size ++ b1 f.sgn ++ f.order ++ f.scope ++ f.scopen ++ b1 f.far ++ f.x) f.imm
def VecF.pack (opc : Nat) (f : VecF) : IWord :=
  packF3 opc f.hd f.d f.a f.b f.c (f.fmt ++ f.fmt2 ++ f.rnd ++ b1 f.zm ++ b1 f.nov ++ b1 f.sb ++ f.x) f.imm
def WhF.pack (opc : Nat) (f : WhF) : IWord :=
  packF3 opc f.hd f.d f.a f.b f.c (f.fmta ++ f.fmtb ++ b1 f.acc ++ b1 f.p24 ++ f.x) f.imm
def EngF.pack (opc : Nat) (f : EngF) : IWord :=
  packF3 opc f.hd f.d f.a f.b f.c (f.que ++ b1 f.trapm ++ b1 f.rlx ++ b1 f.tmo ++ f.cone ++ f.x) f.imm
def SysF.pack (opc : Nat) (f : SysF) : IWord :=
  packF3 opc f.hd f.d f.a f.b f.c (f.x ++ f.sysn) f.imm
def FlF.pack (opc : Nat) (f : FlF) : IWord := packHead opc f.hd ++ f.d.code ++ f.modl ++ f.imm
def FbF.pack (opc : Nat) (f : FbF) : IWord :=
  packHead opc f.hd ++ f.a.code ++ f.b.code ++ b1 f.link ++ f.off ++ f.slot

/-- The word of an instruction; an event of another agent has none. -/
def encode : Instr → Option IWord
  | .illegalOpcodeFff rest => some (BitVec.ofNat 12 0xFFF ++ rest)
  | .nop f => some (f.pack 0x000)
  | .add f => some (f.pack 0x001)
  | .sub f => some (f.pack 0x002)
  | .mul f => some (f.pack 0x003)
  | .mulh f => some (f.pack 0x004)
  | .mad f => some (f.pack 0x005)
  | .div f => some (f.pack 0x006)
  | .rem f => some (f.pack 0x007)
  | .min f => some (f.pack 0x008)
  | .max f => some (f.pack 0x009)
  | .and f => some (f.pack 0x040)
  | .or f => some (f.pack 0x041)
  | .xor f => some (f.pack 0x042)
  | .andn f => some (f.pack 0x043)
  | .orn f => some (f.pack 0x044)
  | .shl f => some (f.pack 0x045)
  | .shr f => some (f.pack 0x046)
  | .sar f => some (f.pack 0x047)
  | .rol f => some (f.pack 0x048)
  | .ror f => some (f.pack 0x049)
  | .clz f => some (f.pack 0x080)
  | .ctz f => some (f.pack 0x081)
  | .popc f => some (f.pack 0x082)
  | .brev f => some (f.pack 0x083)
  | .bswap f => some (f.pack 0x084)
  | .set f => some (f.pack 0x085)
  | .sel f => some (f.pack 0x086)
  | .sext f => some (f.pack 0x087)
  | .zext f => some (f.pack 0x088)
  | .lea f => some (f.pack 0x100)
  | .bfx f => some (f.pack 0x101)
  | .bfi f => some (f.pack 0x102)
  | .zord f => some (f.pack 0x103)
  | .zdec f => some (f.pack 0x104)
  | .mov f => some (f.pack 0x140)
  | .li f => some (f.pack 0x141)
  | .jmp f => some (f.pack 0x180)
  | .call f => some (f.pack 0x180)
  | .loop f => some (f.pack 0x181)
  | .brEq f => some (f.pack 0x190)
  | .brNe f => some (f.pack 0x192)
  | .brLtZ64 f => some (f.pack 0x194)
  | .brLtI64 f => some (f.pack 0x195)
  | .brGeZ64 f => some (f.pack 0x196)
  | .brGeI64 f => some (f.pack 0x197)
  | .brLeZ64 f => some (f.pack 0x198)
  | .brLeI64 f => some (f.pack 0x199)
  | .brGtZ64 f => some (f.pack 0x19A)
  | .brGtI64 f => some (f.pack 0x19B)
  | .jr f => some (f.pack 0x1C0)
  | .ret f => some (f.pack 0x1C1)
  | .trapi f => some (f.pack 0x1C2)
  | .exit f => some (f.pack 0x1C3)
  | .yield f => some (f.pack 0x1C4)
  | .ld f => some (f.pack 0x200)
  | .st f => some (f.pack 0x201)
  | .ldp f => some (f.pack 0x202)
  | .stp f => some (f.pack 0x203)
  | .pref f => some (f.pack 0x240)
  | .wbl f => some (f.pack 0x241)
  | .invl f => some (f.pack 0x242)
  | .zerol f => some (f.pack 0x243)
  | .pin f => some (f.pack 0x280)
  | .unpin f => some (f.pack 0x281)
  | .amoAdd f => some (f.pack 0x300)
  | .amoAnd f => some (f.pack 0x301)
  | .amoOr f => some (f.pack 0x302)
  | .amoXor f => some (f.pack 0x303)
  | .amoSmin f => some (f.pack 0x304)
  | .amoSmax f => some (f.pack 0x305)
  | .amoZmin f => some (f.pack 0x306)
  | .amoZmax f => some (f.pack 0x307)
  | .amoSwap f => some (f.pack 0x308)
  | .amoFaddFp32 f => some (f.pack 0x309)
  | .amoFmaxFp32 f => some (f.pack 0x30A)
  | .cas f => some (f.pack 0x340)
  | .mcas f => some (f.pack 0x341)
  | .fence f => some (f.pack 0x342)
  | .iold f => some (f.pack 0x380)
  | .iost f => some (f.pack 0x381)
  | .vadd f => some (f.pack 0x400)
  | .vsub f => some (f.pack 0x401)
  | .vmul f => some (f.pack 0x402)
  | .vfma f => some (f.pack 0x403)
  | .vfms f => some (f.pack 0x404)
  | .vfnma f => some (f.pack 0x405)
  | .vmin f => some (f.pack 0x406)
  | .vmax f => some (f.pack 0x407)
  | .vabs f => some (f.pack 0x408)
  | .vneg f => some (f.pack 0x409)
  | .vabsmax f => some (f.pack 0x40A)
  | .vdiv f => some (f.pack 0x440)
  | .vsqrt f => some (f.pack 0x441)
  | .vrcp f => some (f.pack 0x442)
  | .vrsq f => some (f.pack 0x443)
  | .vexp2 f => some (f.pack 0x444)
  | .vlog2 f => some (f.pack 0x445)
  | .vscale f => some (f.pack 0x446)
  | .vclass f => some (f.pack 0x480)
  | .vcmp f => some (f.pack 0x481)
  | .vsel f => some (f.pack 0x482)
  | .vcvt f => some (f.pack 0x4C0)
  | .vqnt f => some (f.pack 0x4C1)
  | .vqntSout f => some (f.pack 0x4C1)
  | .vdqnt f => some (f.pack 0x4C2)
  | .viadd f => some (f.pack 0x600)
  | .visub f => some (f.pack 0x601)
  | .vimul f => some (f.pack 0x602)
  | .vimin f => some (f.pack 0x603)
  | .vimax f => some (f.pack 0x604)
  | .vand f => some (f.pack 0x640)
  | .vor f => some (f.pack 0x641)
  | .vxor f => some (f.pack 0x642)
  | .vshl f => some (f.pack 0x643)
  | .vshr f => some (f.pack 0x644)
  | .vsar f => some (f.pack 0x645)
  | .vld f => some (f.pack 0x700)
  | .vst f => some (f.pack 0x701)
  | .vlds f => some (f.pack 0x702)
  | .vgath f => some (f.pack 0x703)
  | .vscat f => some (f.pack 0x704)
  | .vbcast f => some (f.pack 0x740)
  | .vext f => some (f.pack 0x741)
  | .vins f => some (f.pack 0x742)
  | .vperm f => some (f.pack 0x743)
  | .vshuf f => some (f.pack 0x744)
  | .viota f => some (f.pack 0x745)
  | .vred f => some (f.pack 0x746)
  | .vscan f => some (f.pack 0x747)
  | .vmov f => some (f.pack 0x748)
  | .kand f => some (f.pack 0x780)
  | .kor f => some (f.pack 0x781)
  | .kxor f => some (f.pack 0x782)
  | .knot f => some (f.pack 0x783)
  | .kpop f => some (f.pack 0x784)
  | .kfirst f => some (f.pack 0x785)
  | .kmov f => some (f.pack 0x786)
  | .agen f => some (f.pack 0x7C0)
  | .qbind f => some (f.pack 0x7C1)
  | .qfree f => some (f.pack 0x7C2)
  | .rep f => some (f.pack 0x7C3)
  | .mldb f => some (f.pack 0x800)
  | .mldc f => some (f.pack 0x801)
  | .mknot f => some (f.pack 0x802)
  | .mlds f => some (f.pack 0x803)
  | .mma f => some (f.pack 0x840)
  | .mmac f => some (f.pack 0x841)
  | .mspl f => some (f.pack 0x842)
  | .msdx f => some (f.pack 0x880)
  | .msgrad f => some (f.pack 0x881)
  | .mrefine f => some (f.pack 0x882)
  | .mzeroSag f => some (f.pack 0x883)
  | .mzeroBat f => some (f.pack 0x883)
  | .mzeroRib f => some (f.pack 0x883)
  | .mrd f => some (f.pack 0x8C0)
  | .mwr f => some (f.pack 0x8C1)
  | .mdrain f => some (f.pack 0x8C2)
  | .mstat f => some (f.pack 0x8C3)
  | .cpy f => some (f.pack 0x900)
  | .cpyr f => some (f.pack 0x901)
  | .cpyqf f => some (f.pack 0x902)
  | .sleept f => some (f.pack 0x940)
  | .cinit f => some (f.pack 0x980)
  | .arrive f => some (f.pack 0x981)
  | .arriveW f => some (f.pack 0x981)
  | .arriveRmt f => some (f.pack 0x981)
  | .expect f => some (f.pack 0x982)
  | .cwait f => some (f.pack 0x983)
  | .ctest f => some (f.pack 0x984)
  | .evsig f => some (f.pack 0x985)
  | .evsigRmt f => some (f.pack 0x985)
  | .mutexl f => some (f.pack 0x986)
  | .mutexu f => some (f.pack 0x987)
  | .msend f => some (f.pack 0x9C0)
  | .mtake f => some (f.pack 0x9C1)
  | .mpeek f => some (f.pack 0x9C2)
  | .mwaitf f => some (f.pack 0x9C3)
  | .spawn f => some (f.pack 0xA00)
  | .join f => some (f.pack 0xA01)
  | .gang f => some (f.pack 0xA02)
  | .rinit f => some (f.pack 0xA03)
  | .rtake f => some (f.pack 0xA04)
  | .tself f => some (f.pack 0xA05)
  | .sign f => some (f.pack 0xA40)
  | .step f => some (f.pack 0xA41)
  | .dissolve f => some (f.pack 0xA42)
  | .ckpt f => some (f.pack 0xA43)
  | .abort f => some (f.pack 0xA44)
  | .srd f => some (f.pack 0xF00)
  | .swr f => some (f.pack 0xF01)
  | .eret f => some (f.pack 0xF02)
  | .tlbiDom f => some (f.pack 0xF03)
  | .tlbiPage f => some (f.pack 0xF03)
  | .tlbiRange f => some (f.pack 0xF03)
  | .tlbiAll f => some (f.pack 0xF03)
  | .preemptTask f => some (f.pack 0xF40)
  | .preemptGang f => some (f.pack 0xF40)
  | .preemptCompact f => some (f.pack 0xF40)
  | .resumeTask f => some (f.pack 0xF41)
  | .resumeGang f => some (f.pack 0xF41)
  | .resumeCompact f => some (f.pack 0xF41)
  | .haltg f => some (f.pack 0xF42)
  | .salvage f => some (f.pack 0xF43)
  | .uGroupComplete _ _ _ => none
  | .asyncCauseTaken _ => none
  | .breakpoint _ => none
  | .singleStepTrap _ => none
  | .fetchParityRefetch _ => none
  | .frameLineFetch _ _ => none
  | .streamGroupRead _ _ => none
  | .streamGroupWrite _ _ => none
  | .recordDispatch _ _ => none
  | .queueAging _ _ => none
  | .joinHeldPush _ => none
  | .gangWake _ _ => none
  | .gangStart _ => none
  | .wireRequestServe _ _ => none
  | .waitDeadline _ => none
  | .sleeptExpiry _ => none
  | .wheelCommandStart _ => none
  | .wheelCommandComplete _ _ => none
  | .damperGrant _ => none
  | .copyStart _ _ => none
  | .copyComplete _ _ => none
  | .latePromiseExpiry _ _ => none
  | .cpyqfFenceComplete _ _ => none
  | .pendingByteDecrement _ => none
  | .remoteArrival _ => none
  | .remoteSignal _ => none
  | .messageDelivery _ => none
  | .messageAck _ => none
  | .ioldCompletion _ _ _ => none
  | .ioldTimeout _ => none
  | .mcasLockGrant _ => none
  | .dirRead _ _ => none
  | .dirReadForOwnership _ _ => none
  | .dirUpgrade _ _ => none
  | .dirFarOperation _ _ => none
  | .dirWriteback _ _ => none
  | .dirInvlEvict _ _ => none
  | .forwardedPinAccess _ _ _ _ => none
  | .updatePush _ _ _ _ => none
  | .routerCycle _ => none
  | .flitArrival _ => none
  | .throttleWindow _ => none
  | .slfoldWrite _ => none
  | .foldComplete _ => none
  | .homeLossDeclare _ => none
  | .uetPacketReceive _ => none
  | .uetAckReceive _ _ => none
  | .uetRetransmit _ => none
  | .signingComplete _ => none
  | .deviceArrivalReport _ _ => none
  | .planWritePerformed _ => none
  | .boundaryBegin _ => none
  | .memberRelease _ => none
  | .dissolvingComplete _ => none
  | .abortToken _ _ => none
  | .cappingWindow _ => none
  | .telemetryRefresh _ => none
  | .pldmGetSensorReading _ => none
  | .pldmKilnlogRead _ => none
  | .pklimitWrite _ => none
  | .bar2Read _ _ _ => none
  | .bar2Write _ _ _ => none
  | .hseqWrite _ _ _ => none
  | .dconsWrite _ _ _ => none
  | .hconsWrite _ _ => none
  | .dseqWrite _ _ => none
  | .msixUnmask _ _ => none
  | .mbportWrite _ _ => none
  | .bootgo => none
  | .bootVerifyDone => none
  | .coldReset => none
  | .warmReset => none
  | .pcieHotReset _ => none
  | .measurementAppend _ _ => none
  | .attestationReport _ => none
  | .devcfgWrite _ => none
  | .dqringWrite _ _ _ => none
  | .scopeWrite _ _ => none
  | .fpflagsWrite _ => none
  | .wheelwtWrite _ => none
  | .wheelFootprintWrite _ _ => none
  | .wqstatDiscard => none
  | .cfstatAbandon => none
  | .statusWrite _ => none
  | .uetmapWrite _ => none
  | .registerWrite _ _ => none
  | .ethernetLinkChange _ _ => none
  | .cleanCopyDrop _ _ => none
  | .bar0MailboxWrite _ _ _ _ => none

/-- The decoder on the word that the opcode table's numbering gives (04 R87: a word is one little-endian number). -/
def decodeTableWord (nbits w : Nat) : Option Instr :=
  match decode (BitVec.ofNat 96 (w % 2 ^ nbits)) with
  | .ok i => some i
  | .error _ => none

end Sys2Proof
end

