-- ==== Sys2Proof/Config.lean ====
section
/-! DEFINITION. What an implementation of the Evtia fixes, and the free values the manual leaves open (12 R312).
A free value is a constant without a body: no proof can see what it is. -/

namespace Sys2Proof.Config

/-- DESIGN CHOICE (assumption 7): which of the cached and the read entries a walk or an access uses before a covering TLBI
completes, when they differ (21 R411). The argument has the counter of free values, the level and the address. -/
opaque translationPick : Nat → Nat

/-- DESIGN CHOICE (assumption 7): whether a fetch uses the tile's copy of a code line or memory, when the two differ
(04 R106). -/
opaque useCachedLine : Nat → Bool

/-- DESIGN CHOICE (assumption 8): whether a PREF is dropped (07 R167). -/
opaque dropPref : Nat → Bool

/-- DESIGN CHOICE (assumption 8): which entry of a page's group a walk uses, when they differ (21 R410). -/
opaque groupEntry : Nat → Nat

/-- DESIGN CHOICE (assumption 8): the elements an MRD has written before its fault (09 R243). -/
opaque mrdWrote : Nat → Nat → Bool

/-- DESIGN CHOICE (assumption 24): whether a command whose effects come at its end sees place `i` of the Wheel's memories as it
is then, and not as it was at its start (09 R220). -/
opaque seesNew : Nat → Nat → Bool

/-- DESIGN CHOICE (assumption 9): the vendor's Ed448 public key, held in fuses (22 R425). -/
opaque vendorKey : List Byte

/-- DESIGN CHOICE (assumption 9): the 57-byte Ed448 secret that a boot derives from the fuse secret (22 R427).
The manual gives no derivation. -/
opaque identitySecret : List Byte

/-- DESIGN CHOICE (assumption 9): the boot ROM's own digest (22 R426). -/
opaque romDigest : List Byte

/-- DESIGN CHOICE (assumption 10): which of several ports a flit at router `r` takes, `n` being the counter of free
values (20 R381). -/
opaque routeTo : Nat → Nat → Nat

/-- DESIGN CHOICE (assumption 10): whether router `r` has no bridge port for a flit now; the manual gives no bridge
positions (01 R16). -/
opaque noBridge : Nat → Nat → Bool

/-- DESIGN CHOICE (assumption 10): whether a move within a die of a flit for another die is a deflection (20 R381, R384). -/
opaque deflected : Nat → Nat → Bool

/-- DESIGN CHOICE (assumption 5): which free frame of the pool a task receives (01 R31), as an index into the pool. -/
opaque frameChoice : Nat → Nat

/-- DESIGN CHOICE (assumption 11): a value the manual leaves open in a 64-bit place. -/
opaque freeWord : Nat → Word

/-- DESIGN CHOICE (assumption 8): which evictable line a frame store gives up (01 R29). -/
opaque evictChoice : Nat → Nat

/-- DESIGN CHOICE (assumption 27): the address of the next V-class instruction where it depends on a transfer that has
not issued (02 R43). -/
opaque nextVec : Nat → Word

/-- DESIGN CHOICE (assumption 11): whether a posted PCIe write meets an error outside the device (07 R186). -/
opaque postedFails : Nat → Bool

/-- DESIGN CHOICE (assumption 5): which die's queue an idle context is served from when the heads of several dies have
the same priority (02 R49, R50). -/
opaque dieChoice : Nat → Nat

/-- DESIGN CHOICE (assumption 26): which sending cluster's compact channel makes the next plan copy; the channels are not
ordered against one another (13 R328). -/
opaque channelChoice : Nat → Nat

end Sys2Proof.Config
end

