-- ==== Sys2Proof/Machine/State.lean ====
section
/-! DEFINITION. The state of one Evtia device as plain data (01 R12-R40 and the chapters that own each unit), the
reasons a step can stop, and the state after reset. A numbered family of units is a sparse map from the unit's number
to its record; a number without an entry is a unit at its reset value. -/

namespace Sys2Proof.Machine

open Sys2Proof

/-- A sparse map with ascending keys. -/
abbrev Map (α : Type) := List (Nat × α)

/-- A vector clock: for each party, the count of its releases that happen-before the holder (11 R287, R296). -/
abbrev Clock := Map Nat

/-- Bytes by address: ascending addresses, no zero byte; an unlisted byte reads 0 (assumption 2). -/
abbrev Mem := List Host.Cell

/-- The scope instance of a synchronising operation (11 R290). -/
inductive ScopeInst where
  | tile (t : Nat)
  | clus (c : Nat)
  | die (d : Nat)
  | dev
  | fab
  | named (mask : BitVec 512) (here : Bool)
  deriving DecidableEq, Repr, Inhabited

/-- A release: what happens-before it, its scope instance and the releasing party's tile (11 R289, R291). -/
structure Rel where
  clk : Clock
  inst : ScopeInst
  tile : Nat
  deriving DecidableEq, Repr, Inhabited

/-- One recorded access of a checked word (11 R299, R301). -/
structure Wit where
  party : Nat
  epoch : Nat
  wr : Bool
  data : Bool
  deriving DecidableEq, Repr, Inhabited

/-- What raises a cause: the fields of FAULTINFO and FAULTADDR (21 R395). `info` is absent when it is the faulting
instruction's OPC. -/
structure Trap where
  cause : Nat
  detail : Nat := 0
  addr : Word := 0
  w : Bool := false
  pw : Bool := false
  level : Nat := 0
  info : Option (BitVec 32) := none
  deriving DecidableEq, Repr, Inhabited

/-- A group that an input stream has read and no instruction has popped (08 R209, R210). A failed check is held as
cause, FAULTINFO low fields and address. -/
structure Group where
  addr : Word
  data : VReg
  bad : Option (Nat × Nat × Word)
  deriving DecidableEq, Repr, Inhabited

/-- Who waits at the home of a locked line (07 R179): the MCAS of a task, another party's access, a write under way, or a read
or write of a port. -/
inductive Waiter where
  | mcas (task : Nat)
  | party (p : Nat)
  | group (id : Nat)
  | port (peer wr : Bool)
  deriving DecidableEq, Repr, Inhabited

/-- Bytes that a cluster's task has written and that are not yet in memory: a group pushed to an output stream (08 R209,
R210), the OBS fields of an MCAS (07 R179), or a record of the branch trace (21 R416). Its bytes are given for each physical
range, and it waits at a line as `who`. -/
structure OutGroup where
  clus : Nat
  who : Waiter
  data : List (Nat × List Byte)
  deriving DecidableEq, Repr, Inhabited

/-- An address generator (08 R207), with the groups read ahead, the groups pushed and not yet performed, and the last
group that moved through the bound register. A pushed group waits with its address, its bytes and the physical ranges
that its checks gave. -/
structure Gen where
  base : Word
  ext : Vector (BitVec 32) 4
  str : Vector (BitVec 32) 4
  pos : BitVec 32
  bound : Bool
  vreg : BitVec 3
  dir : Bool
  valid : Bool
  fifo : List Group
  out : List OutGroup
  last : Option VReg
  deriving DecidableEq, Repr, Inhabited

/-- An entry of the V-stream queue (08 R190): the instruction's address, the s value read at issue or a REP's state,
the instruction (absent when it is to be fetched again) and what happened before its issue. `bad` is the failure of
fetching it again. -/
structure VEntry where
  pc : Word
  scal : Word
  ins : Option Instr
  bad : Option Trap := none
  clk : Clock
  deriving DecidableEq, Repr, Inhabited

/-- An entry of the message spill mailbox (10 R272), with what happens-before its send. -/
structure MEntry where
  value : Word
  reg : BitVec 4
  blk : Bool
  clk : Clock
  deriving DecidableEq, Repr, Inhabited

/-- An entry of the reassembly save area (20 R392). -/
structure Reasm where
  mid : Nat
  src : Nat
  seq : Nat
  reg : Nat
  n : Nat
  pay : BitVec 512
  deriving DecidableEq, Repr, Inhabited

/-- An asynchronous cause pending for a task (21 R400). `ref` is the copy it concerns. -/
structure Pend where
  code : Nat
  detail : Nat
  addr : Word
  w : Bool
  info : BitVec 32
  ref : Nat
  pw : Bool := false
  deriving DecidableEq, Repr, Inhabited

/-- One target word of an MCAS (07 R176): its address and place, whether its page is checked, EXP and NEW, and the place
of its OBS field. -/
structure McasEntry where
  va : Word
  pa : Nat
  chk : Bool
  exp : Word
  new : Word
  obs : Nat
  obsVa : Word
  obsChk : Bool
  deriving DecidableEq, Repr, Inhabited

/-- An MCAS between its issue and its event (07 R179). `held` counts the locks taken, in the order of `lines`; `dst`,
`next` and `uni` are the destination, the PC after the bundle and the U bit of the waiting instruction. Once its event has
taken place, `seen` holds its status and the values it observed, until they are written into the block. -/
structure McasRec where
  entries : List McasEntry
  lines : List Nat
  held : Nat
  dst : Reg
  next : Word
  uni : Bool
  order : Nat
  inst : ScopeInst
  seen : Option (Nat × List Nat) := none
  deriving DecidableEq, Repr, Inhabited

/-- An IOLD that waits for its completion (07 R184, R185), and the result once it has come. -/
structure IoRec where
  port : Nat
  addr : Nat
  n : Nat
  t0 : Word
  result : Option (Nat × Word)
  deriving DecidableEq, Repr, Inhabited

/-- The tag of a bat slot (09 R214). -/
inductive Tag where
  | empty
  | zero
  | b (fmta fmtb : Nat) (p24 : Bool) (pass : Nat)
  | spline
  deriving DecidableEq, Repr, Inhabited

/-- What a command that started finds when its effects come at its end: the memory it has read, and the bat, rib and knot
registers as they stood at its start (09 R220; assumption 24). -/
structure WSnap where
  mem : Mem
  tags : Map Tag
  bat : Mem
  rib : Mem
  kn : Map (BitVec 128)
  deriving DecidableEq, Repr, Inhabited

/-- A Wheel command in a queue (09 R218, R219, R226), of a task of domain `dom` on tile `tile` whose party is `party`. `parts`
lists the clusters in which it has not completed, `begun` those in which it has started, `flags` the flags it has raised. An
MMAC keeps the issuing cluster and the A rows read by its first part (09 R237; 14 R347). -/
structure WCmd where
  id : Nat
  task : Nat
  pc : Word
  ins : Instr
  a : Word
  b : Word
  c : Word
  clk : Clock
  asked : Option Word
  granted : Bool
  damp : Nat
  parts : List Nat
  begun : List Nat
  flags : BitVec 9
  clus : Nat
  dom : Nat
  tile : Nat
  party : Nat
  rows : Option (List (List Nat)) := none
  snap : Option WSnap := none
  deriving DecidableEq, Repr, Inhabited

/-- A stopped task's Wheel footprint in the save extension (09 R226): the tags of its bat slots (by position among
them), kept beside the bytes in memory because their internal form is not architectural. -/
structure WSave where
  tags : List Tag
  stopped : List Nat
  deriving DecidableEq, Repr, Inhabited

/-- A request to a wire unit: on its way, or answered with the wire-range fault or with a chunk (02 R70, R71). -/
inductive WireSt where
  | asked
  | fault
  | got (start size : Word)
  deriving DecidableEq, Repr, Inhabited

/-- How a task stands (02 R45, R66, R72; 21 R402, R407, R408). -/
inductive Run where
  /-- Holds a context; ready unless it waits or stalls. -/
  | run
  /-- Has executed EXIT and drains (R66 steps 1 to 4). -/
  | exiting
  /-- Pre-empted. -/
  | stopped
  /-- Stopped by a forwarded cause, still holding its context (R402). -/
  | forwarded
  /-- Resumed and waiting for a context of its tile (R408). -/
  | resuming
  deriving DecidableEq, Repr, Inhabited

/-- A task: its registers (01 R17, R27, R28; 02 R62), its place, and what its units hold for it. `closed` is set by EXIT
(02 R66); `joinDie` is the die whose holding buffer a held JOIN waits for; `eretV` is the PC of an ERET whose bundle's
V-class instruction has entered the queue (21 R401); `wclk` is what the served reads of its Wheel commands happen after
(11 R309). -/
structure Task where
  gen : Nat
  dom : Nat
  tile : Nat
  ctx : Nat
  keep : Bool
  gang : Option Nat
  share : Nat
  run : Run
  -- program points and registers
  pc : Word
  entered : Option (Word × Bool)
  s : Vector Word 64
  v : Vector VReg 32
  k : Vector KReg 8
  m : Vector Word 16
  full : BitVec 16
  mclk : Vector Clock 16
  q : Vector (List Word) 8
  gens : Vector Gen 8
  mbox : List MEntry
  dead : Nat
  reasm : List Reasm
  -- status line
  ipc : Word
  vpc : Word
  status : Word
  fpflags : Word
  faultaddr : Word
  faultinfo : Word
  wait : Word
  wake : Option Nat
  deadline : Option Word
  saveext : Word
  ucnt : Nat
  hcycle : Word
  hsent : Word
  hrecv : Word
  hinfo : Word
  resident : BitVec 64
  -- V-stream
  vq : List VEntry
  saved : List VEntry
  -- causes, handlers
  pend : List Pend
  cfdesc : Word
  cfdone : Word
  cfstat : Word
  cfcopy : Option Nat
  apPhase : Bool
  stepping : Bool
  yielded : Bool
  -- Wheel
  wfsag : Word
  wfbat : Word
  wfrib : Word
  wfkn : Word
  fpend : List Nat
  wstop : List Nat
  werr : Word
  wdone : Word
  wdamp : Word
  wsaved : List WCmd
  wimage : Option WSave
  -- operations under way
  sends : List (Nat × Reg × Bool)
  mcas : Option McasRec
  io : Option IoRec
  wire : Option WireSt
  signed : Option (Option (Nat × Word))
  arrivedAt : Option Word
  joinRec : Option Word
  joinDie : Nat
  copied : List (Word × Clock)
  sysReq : Option Word
  halting : Option (Word × Nat)
  closed : Bool
  eretV : Option Word
  -- memory order
  party : Nat
  clk : Clock
  fenceRel : List Rel
  readRel : List Rel
  wclk : Clock
  deriving DecidableEq, Repr, Inhabited

/-- What a frame keeps between tasks (01 R31, R36; 02 R63; 21 R404). -/
structure Frame where
  gen : Nat
  dom : Nat
  kept : Bool
  held : Bool
  deriving DecidableEq, Repr, Inhabited

/-- A tile's own state (01 R29; 02 R46; 04 R89, R106; 21 R396). `store` holds the evictable lines of its frame store, those
of stopped tasks, by frame number times 64 plus the line; the lines of a running task are in its record. `domsel` is
each context's DOMSEL. -/
structure Tile where
  lastBundle : Nat
  lastVector : Nat
  lines : Map (List Byte)
  store : Map (List Byte)
  msgout : Word
  msgin : Word
  btctl : Word
  btpos : Word
  domsel : Vector Nat 4
  deriving DecidableEq, Repr, Inhabited

/-- A cone (10 R259), with the tasks that wait for its phase, those that wait to hold it, and the releases it has counted
(10 R264, R268). -/
structure Cone where
  init : Bool
  mode : Nat
  dom : Nat
  phase : Bool
  e : Nat
  a : Nat
  pb : Int
  holder : Word
  waiters : List Nat
  lockers : List Nat
  clk : Clock
  done : Clock
  deriving DecidableEq, Repr, Inhabited

/-- A cluster's Wheel (09 R214, R224, R225; 14 R342, R343). Rows, slots, units and knots are owned by the domain that
last held them; `knSeen` is what KNA and KNB show (09 R225); `runArray` and `runPort` are the queues whose command
runs, `wtNow` the weights of the current round, and `startAt` the ck of the last start. `bad` lists the poisoned 64-bit words by
memory (0 bat, 1 rib, 2 saggar) and place (23 R431). -/
structure Wheel where
  tags : Map Tag
  bat : Mem
  rib : Mem
  sag : Map (BitVec 32)
  kn : Map (BitVec 128)
  knSeen : Map (BitVec 128)
  rowDom : Map Nat
  slotDom : Map Nat
  unitDom : Map Nat
  knDom : Map Nat
  queues : Map (List WCmd)
  stopped : List Nat
  runArray : Option Nat
  runPort : Option Nat
  wt : Word
  wtNow : Word
  credit : Map Nat
  last : Nat
  startAt : Option Word
  bad : List (Nat × Nat)
  deriving DecidableEq, Repr, Inhabited

/-- One dimension of a copy (10 R249). -/
structure CopyDim where
  ext : Nat
  sstr : Int
  dstr : Int
  plo : Nat
  phi : Nat
  deriving DecidableEq, Repr, Inhabited

/-- What a command of a pug queue does (10 R249-R257, 13 R328). -/
inductive CopyOp where
  | copy (src dst : Word) (pad : Word) (sfmt dfmt op rnd : Nat) (nov : Bool) (dims : List CopyDim) (layout : Word)
      (dest : Option Word) (recv : Word)
  | fence
  deriving DecidableEq, Repr, Inhabited

/-- Where a command of a pug queue stands (10 R254; 21 R412). -/
inductive CopyRun where
  | queued
  | running
  | faulted
  deriving DecidableEq, Repr, Inhabited

/-- A command of the pug engine: `mask` names its queues (10 R254, R257). Its reads are made by `party`, its writes by
`wparties`, parts of that party, one for each run and packet (11 R294, R295); `bad` is the first element that another device has refused. -/
structure Copy where
  id : Nat
  task : Nat
  party : Nat
  dom : Nat
  tile : Nat
  ended : Bool
  mask : BitVec 8
  desc : Word
  op : CopyOp
  cone : Option Nat
  promise : Word
  late : Bool
  run : CopyRun
  done : Nat
  fcause : Nat
  fwrite : Bool
  faddr : Word
  heavy : Bool
  granted : Bool
  clk : Clock
  wparties : List Nat
  unacked : Nat
  bad : Option (Nat × Trap)
  flags : BitVec 9
  deriving DecidableEq, Repr, Inhabited

/-- A group of once-per-cluster instructions (04 R101). -/
structure UGroup where
  gang : Nat
  n : Nat
  exec : Nat
  pc : Word
  done : Bool
  cmd : Option Nat
  regs : List (BitVec 6 × Word)
  clk : Clock
  deriving DecidableEq, Repr, Inhabited

/-- A pinned slab page (01 R39, 07 R168, 13 R323): the physical page, its virtual page, its domain, and the task
(compact number 0) or the compact that pins it. -/
structure Pin where
  pa : Nat
  va : Nat
  dom : Nat
  comp : Nat
  task : Nat
  deriving DecidableEq, Repr, Inhabited

/-- A cluster's own state (01 R12; 10; 14; 20 R384). -/
structure Clus where
  pins : List Pin
  cones : Map Cone
  wheel : Wheel
  copies : List Copy
  lastPromise : Map Word
  copyClk : Map Clock
  damperQ : List (Bool × Nat × Word)
  lastGrant : Option Word
  leaves : List (Bool × Nat)
  injAt : List Nat
  injPug : Bool
  injLast : Nat
  throttle : Nat
  winDefl : Nat
  winFlits : Nat
  win : Nat
  deflcnt : Nat
  ugroups : List UGroup
  softErr : Nat
  coneErr : Nat
  dropErr : Nat
  lateCopies : Nat
  deriving DecidableEq, Repr, Inhabited

/-- A continuation record in a queue (02 R47, R53), with what happens-before its push. -/
structure DRec where
  code : Word
  frame : Word
  arg : Word
  ctl : Word
  since : Word
  clk : Clock
  told : Bool := false
  deriving DecidableEq, Repr, Inhabited

/-- A range of a wire unit (02 R69). -/
structure Range where
  lo : Word
  hi : Word
  next : Word
  p : BitVec 16
  min : BitVec 32
  dom : BitVec 8
  valid : Bool
  deriving DecidableEq, Repr, Inhabited

/-- A request waiting at a wire unit (02 R71): an RINIT carries its block. -/
structure WireReq where
  task : Nat
  range : Nat
  init : Option (Word × Word × BitVec 16 × BitVec 32)
  deriving DecidableEq, Repr, Inhabited

/-- A die's own state (01 R12; 02 R49-R54, R434; 14 R346, R350; 23 R431, R432). -/
structure Die where
  dqring : Vector Word 16
  dqage : Vector Word 16
  queues : Map (List DRec)
  joinHeld : List DRec
  ranges : Map Range
  wireReqs : List WireReq
  dampctl : Word
  xdelay : Word
  klog : Map (List Byte)
  klhead : Nat
  corrSram : Nat
  corrHbm : Nat
  poisoned : Nat
  deriving DecidableEq, Repr, Inhabited

/-- A domain's registers and lists (01 R24, R25; 02 R63; 21 R396). `ptSet` says whether PTROOT has been written
(assumption 12). -/
structure Dom where
  tvbase : Word
  ptroot : Word
  ptSet : Bool
  hchain : Vector Word 8
  bkpt : Vector Word 4
  scope : Vector Word 16
  scopeCopy : Map (BitVec 512 × BitVec 512)
  pool : Option (List Nat)
  dispatchErr : List DRec
  deriving DecidableEq, Repr, Inhabited

/-- A directory entry's state (20 R386). -/
inductive DirSt where
  | i
  | s (cs : List Nat)
  | sd (dies : BitVec 8)
  | e (c : Nat)
  | m (c : Nat)
  | p (comp c : Nat)
  | pNone (comp : Nat)
  | o (c : Nat)
  | l (task : Nat)
  deriving DecidableEq, Repr, Inhabited

/-- A directory entry: its state, the adaptive-update counter and mode (20 R387) and the orphan's bytes (20 R390). -/
structure DirEnt where
  st : DirSt
  cnt : Nat
  lastOwner : Nat
  upd : Bool
  unread : Bool
  orphan : List Byte
  deriving DecidableEq, Repr, Inhabited

/-- A cached translation, of the 64 KiB `page` of a leaf (level 3), or a table entry that the walker caches (level 1 or 2);
`page` counts the pages or the spans of that level's entries (21 R411). -/
structure TlbEnt where
  dom : Nat
  level : Nat
  page : Nat
  entry : Word
  deriving DecidableEq, Repr, Inhabited

/-- A gang (02 R56-R61): pending until every member has started, then running. A resuming gang reserves again. `stopping` is set
while a stop waits for the end of its members' DISSOLVE (13 R321). -/
structure Gang where
  code : Word
  arg : Word
  dom : Nat
  prio : Nat
  since : Word
  cidx : Nat
  tmask : BitVec 8
  tiles : List Nat
  joinp : Word
  started : Bool
  pending : Bool
  seq : Nat
  resv : List (Nat × Nat)
  tasks : List Nat
  halted : Bool
  stopping : Bool
  clk : Clock
  endClk : Clock
  deriving DecidableEq, Repr, Inhabited

/-- A compact's state (13 R320). -/
inductive CState where
  | signing
  | compute
  | transfer
  | boundary
  | dissolving
  | aborting
  | stopped
  deriving DecidableEq, Repr, Inhabited

/-- A gang whose SIGN has failed on structures that name no other device, or not this one (13 R319): the clusters in which
other devices may still await its answer, and the devices that have had it. -/
structure SignFail where
  gang : Nat
  cluss : List Nat
  told : List Nat
  deriving DecidableEq, Repr, Inhabited

/-- A compact as this device holds it (13 R315-R340). `id` is the number by which the other devices name it in their packets, and
`peers` are their numbers of it; `others`, `otherPins` and `otherTabs` give their plan entries, pin ranges and tables. `badAddr` is
where the reading of its structures failed, `reports` are the devices' answers at signing, `ready` the devices that have reported
the end of the current phase and `acks` those that have reported their part of a stop, a resume or an abort, this one among
them. `parties` gives the member tasks' parties with their epochs at SIGN. `signed` is set once Signing has ended, `moving` while
this device converts lines (Signing), stops, resumes, has converted (Dissolving), or serves parked reads (Aborting). `sending` lists
the plan entries still to be sent in this superstep, `steps` the committed steps that the devices report in an abort. -/
structure Compact where
  num : Nat
  id : Nat
  gang : Nat
  dom : Nat
  st : CState
  step : Word
  final : Bool
  desc : Word
  period : Nat
  early : Bool
  devs : List Nat
  masks : List (BitVec 512)
  peers : List (Nat × Nat)
  pins : List PinRange
  plan : List PlanEntry
  others : List (Nat × PlanEntry)
  otherPins : List (Nat × PinRange)
  otherTabs : List (Nat × List Nat × List (BitVec 512))
  ctl : Word
  badAddr : Option Word
  shadowA : Nat
  shadowB : Nat
  issued : List (Nat × Word)
  status : Option Nat
  reports : List (Nat × Nat)
  ready : List Nat
  acks : List Nat
  parties : List (Nat × Nat)
  signed : Bool
  moving : Bool
  stepIssued : List Nat
  dissolveIssued : List Nat
  arrivals : List (Nat × Bool × Option Nat)
  sending : List Nat
  unacked : Nat
  ckpt : Bool
  latestB : Bool
  committed : Option Word
  stopPending : Bool
  releaseOnResume : Bool
  reason : Nat
  raiser : Nat
  abortAt : Word
  steps : List (Nat × Option Word)
  clk : Clock
  boundaryClk : Clock
  deriving DecidableEq, Repr, Inhabited

/-- A flit (20 R380, R381): the fields of its header and its payload. `ref` is the message of the model that it belongs to,
`q` the source of its cluster that injects it (14 R348); it was injected in fk `born` and came to its router in fk `came`. It
stands at its endpoint with `here`, and goes on with `back` once that endpoint has turned it away. With `excused` the bound of 20
R383 has not held at some time of its flight. -/
structure Flit where
  dest : Nat
  src : Nat
  age : Nat
  mid : Nat
  seq : Nat
  isLast : Bool
  kind : Nat
  pay : BitVec 512
  ref : Nat
  q : Nat
  router : Nat
  here : Bool
  back : Bool
  born : Nat
  came : Nat
  excused : Bool
  deriving DecidableEq, Repr, Inhabited

/-- A message that is partly received at an endpoint (20 R382). `got` lists the numbers of the flits that have arrived. -/
structure Slot where
  dest : Nat
  src : Nat
  mid : Nat
  ref : Nat
  n : Nat
  got : List Nat
  escape : Bool
  deriving DecidableEq, Repr, Inhabited

/-- A message send between its issue and its acknowledgement (10 R271, R272). Inside the device it
travels from endpoint `src` as message `mid`, and `got` lists its flits already accepted; `status` is the receiver's
answer. -/
structure Send where
  id : Nat
  task : Nat
  dom : Nat
  dev : Nat
  handle : Word
  reg : Nat
  words : List Word
  blk : Bool
  clk : Clock
  src : Nat
  mid : Nat
  got : List Nat
  status : Option Nat
  deriving DecidableEq, Repr, Inhabited

/-- A remote arrival or signal inside the device (10 R264, 14 R352); `at'` orders those that have arrived. -/
structure RArr where
  mid : Nat
  task : Nat
  dom : Nat
  clus : Nat
  cid : Nat
  signal : Bool
  clk : Clock
  at' : Option Nat
  deriving DecidableEq, Repr, Inhabited

/-- A pending-byte decrement on its way to a cone (10 R255). -/
structure PbDec where
  clus : Nat
  cid : Nat
  bytes : Nat
  dom : Nat
  clk : Clock
  deriving DecidableEq, Repr, Inhabited

/-- Who makes a read that a compact parks (13 R331): a task (its V-stream or not), its fetch, a copy, a Wheel command, a
gang's JOIN, or a BAR read. -/
inductive Reader where
  | task (t : Nat) (vs : Bool)
  | fetch (t : Nat)
  | copy (clus id : Nat)
  | wheel (clus id : Nat)
  | join (party : Nat)
  | host (peer : Bool) (off n : Nat)
  deriving DecidableEq, Repr, Inhabited

/-- A read of a line pinned by a compact, parked until its boundary (13 R331). `clk` is what the boundary that serves it
makes happen before it (11 R309). -/
structure Parked where
  reader : Reader
  comp : Nat
  line : Nat
  clk : Option Clock := none
  deriving DecidableEq, Repr, Inhabited

/-- A gang's JOIN on JOINP that has not been performed yet (02 R66): the read-modify-write waits, or, with the count
already 0, the push of the record at `rp`. The context of the member that ended last, `ctx` of tile `place`, becomes idle
once it has been. -/
structure GangJoin where
  dom : Nat
  tile : Nat
  party : Nat
  clk : Clock
  joinp : Word
  rp : Option Word
  place : Nat
  ctx : Nat
  deriving DecidableEq, Repr, Inhabited

/-- What the firing program does to lists that the manual gives it and whose means of access it does not describe
(assumption 76): it frees a kept or held frame, sets a domain's pool, clears the VALID bit of a range, takes a domain's
dispatch errors, and gives the witness bits their shadow region. -/
inductive FirmOp where
  | freeFrame (f : Nat)
  | setPool (dom : Nat) (l : List Nat)
  | clearRange (n : Nat)
  | takeErrors (dom : Nat)
  | shadowRegion (n : Nat)
  | endRecovery (die : Nat)
  deriving DecidableEq, Repr, Inhabited

/-- An ECC error (23 R431): a corrected one in a die's SRAM or in a die's HBM, an uncorrectable word of a physical
address, in an SRAM or the HBM4 of a die, an uncorrectable word of a Wheel's memory, or a flipped bit of a code line that a tile holds, found by its parity (04 R89). -/
inductive EccError where
  | sram (die : Nat)
  | hbm (die : Nat)
  | word (die pa : Nat)
  | wheel (clus mem word : Nat)
  | code (tile key bit : Nat)
  deriving DecidableEq, Repr, Inhabited

/-- What a port's host does through BAR0 besides the mailboxes (22 R418, R424, R425): it reads, or it writes the boot
registers or the MSI-X table. -/
inductive PortOp where
  | read (off n : Nat)
  | write (off : Nat) (bytes : List Byte)
  deriving DecidableEq, Repr, Inhabited

/-- A packet sent and not yet acknowledged (20 R393), by cluster `clus` through `port`; `start` is the first element that it
carries. -/
structure UePkt where
  pkt : Packet
  port : Nat
  start : Nat
  sentAt : Word
  tries : Nat
  task : Nat
  ref : Nat
  clus : Nat := 0
  deriving DecidableEq, Repr, Inhabited

/-- The answer to a packet received (20 R393): what its acknowledgement carries. -/
structure UetAns where
  dev : Nat
  num : Nat
  answer : Answer
  deriving DecidableEq, Repr, Inhabited

/-- A mailbox (22 R420). `data` holds bytes 0 to 2,047 of its block. -/
structure Mbox where
  data : Mem
  err : Bool
  hseq : BitVec 32
  hcons : BitVec 32
  dseq : BitVec 32
  dcons : BitVec 32
  task : Word
  port : Bool
  deriving DecidableEq, Repr, Inhabited

/-- One MSI-X vector of a port (22 R424): its table entry and its pending bit. -/
structure Msix where
  addr : Word
  data : BitVec 32
  masked : Bool
  pending : Bool
  deriving DecidableEq, Repr, Inhabited

/-- What the firing program has been told (02 R49, R52, R63, R66; 10 R248, R256; 11 R301; 13 R337; 20 R383;
21 R404, R413; 22 R422). -/
inductive Notice where
  | joinHeld (die : Nat)
  | noFrame (dom : Nat)
  | shadowFull
  | deadRecord (dom : Nat) (code : Word)
  | gangJoinFault (cause : Nat) (addr : Word)
  | dropped (clus : Nat)
  | lateCopy (clus id : Nat)
  | copyFaultEnded (clus id : Nat)
  | lateDelivery (src : Nat)
  | fatal (task : Nat) (info : Word)
  | abortRecord (bytes : List Byte)
  deriving DecidableEq, Repr, Inhabited

/-- What leaves the device for the outside: PCIe transactions of tasks and copies, completions of BAR reads (with the
EP bit), MSI-X messages, Ultra Ethernet packets and acknowledgements, PLDM answers, attestation reports (07 R184; 20 R393;
22 R419, R424, R427; 23 R430). -/
inductive Output where
  | ioWrite (port addr : Nat) (bytes : List Byte)
  | ioRead (port addr n : Nat)
  | barData (peer : Bool) (bytes : List Byte) (ep : Bool)
  | msix (peer : Bool) (vec : Nat) (addr : Word) (data : BitVec 32)
  | uetPacket (port : Nat) (p : Packet)
  | uetAck (a : UetAns)
  | pldm (value : Nat)
  | pldmError
  | pldmFile (entries : List (List Byte))
  | report (bytes : List Byte)
  deriving DecidableEq, Repr, Inhabited

/-- The three parts (00 R1). -/
inductive Part where
  | ev4096lm
  | ev4096pk
  | ev3584lm
  deriving DecidableEq, Repr, Inhabited

/-- What moves in one turn (assumption 1): a task's bundle, a V-stream's head, an event of another agent, the firing
program at its lists, a port's host at BAR0, the start of a Wheel command whose effects come at its end, a message of
the fabric's other traffic (requests, replies, data, acknowledgements and control, 20 R380), injected by source `q` of endpoint
`src`, the link or bridge between two routers going down or up (20 R383), or an ECC error. With `now`, the bundle's V-class
instruction executes in the same turn. -/
inductive Act where
  | issue (task : Nat) (now : Bool)
  | vector (task : Nat)
  | event (i : Instr)
  | firm (op : FirmOp)
  | port (peer : Bool) (op : PortOp)
  | lateStart (clus : Nat)
  | traffic (src dest kind q : Nat) (pays : List (BitVec 512))
  | link (a b : Nat) (up : Bool)
  | ecc (e : EccError)
  | pass
  deriving DecidableEq, Repr, Inhabited

/-- One turn: `dt` ck pass, then `act` moves (assumption 1). -/
structure Turn where
  dt : Nat
  act : Act
  deriving DecidableEq, Repr, Inhabited

/-- What became of the instruction that the current turn ran (assumption 1): it completed; it stalled and has not
issued; it entered a restartable wait; it took a trap. -/
inductive Fate where
  | done
  | stalled
  | held
  | trapped
  deriving DecidableEq, Repr, Inhabited

/-- The instruction being run: the slot's PC, the PC that sequential flow reaches after the bundle, the first slot of
the bundle, the s value captured at issue, whether the V-stream runs it, the REP rotation of v registers, what
happened before it when the V-stream runs it, the target of a taken transfer with its trace kind, its fate, the
trap it took (with true when the effect before it stands, 10 R276), and whether units serve it in the same turn where
they can (assumption 1). -/
structure Cx where
  pc : Word
  next : Word
  first : Word
  scal : Word
  vs : Bool
  rot : Nat
  vclk : Clock
  target : Option (Word × Nat)
  fate : Fate
  trap : Option (Trap × Bool)
  now : Bool
  deriving DecidableEq, Repr, Inhabited

/-- Why a step stops. -/
inductive Fault where
  /-- `exec` was given an instruction while `cur` names no task that holds a context: an instruction is executed by a
  task (02 R43). Raised by every instruction's meaning. Safe: the model stops where the hardware has nothing to do. -/
  | noTask
  deriving DecidableEq, Repr

/-- Why a step is refused. -/
inductive Refusal where
  /-- The instruction has no meaning yet; raised by its arm of `exec` alone. Safe. -/
  | notModelled (mnemonic : String)
  /-- LD, ST, LDP or STP of domain 0 reached an offset of device control space that the manual does not describe
  (01 R33). Raised by those four. Safe. -/
  | undescribedControl (pa : Nat)
  deriving DecidableEq, Repr

/-- The device. -/
structure State where
  -- the part and its clock
  part : Part
  present : BitVec 512
  rollback : Word
  cycle : Word
  -- device registers
  devset : Bool
  devnum : BitVec 10
  fabthr : Word
  cohctl : Word
  delBound : Nat
  delDrop : Nat
  slfold : BitVec 16
  foldstat : BitVec 8
  foldTo : BitVec 16
  uetcfg : Vector Word 8
  uetrto : Word
  uetretry : Word
  uetmap : Word
  uetTable : Mem
  -- memory and coherence
  mem : Mem
  poison : List Nat
  lost : List Nat
  recover : List Nat
  dir : Map DirEnt
  tlb : List TlbEnt
  wit : Map (List Wit)
  lineHist : Map Clock
  shadow : Option Nat
  shadowTold : Bool
  rels : Map (List Rel)
  parties : Nat
  -- tasks and units
  tasks : Map Task
  frames : Map Frame
  doms : Map Dom
  tiles : Map Tile
  cluss : Map Clus
  dies : Map Die
  gangs : Map Gang
  gangSeq : Nat
  compacts : List Compact
  -- in flight
  injq : List Flit
  flits : List Flit
  fk : Nat
  cycled : List Nat
  downLinks : List (Nat × Nat)
  slots : List Slot
  sends : List Send
  rarrs : List RArr
  pbdecs : List PbDec
  parked : List Parked
  barWrites : List (Bool × Nat × List Byte)
  barReads : List (Bool × Nat × Nat)
  lockWaits : List (Nat × Waiter)
  strays : List OutGroup
  gangJoins : List GangJoin
  uetOut : List UePkt
  uetSeen : List UetAns
  inbox : List Packet
  ended : List (Nat × Nat)
  signFails : List SignFail
  nextId : Nat
  -- host, boot, power
  mboxes : Map Mbox
  msixHost : Map Msix
  msixPeer : Map Msix
  bootaddr : Word
  bootstat : BitVec 8
  measure : List Byte
  measured : Nat
  version : Word
  pklimit : Nat
  capping : Bool
  sensors : Map Nat
  ioErrors : Nat
  notices : List Notice
  outputs : List Output
  -- the model's own (assumption 1)
  agenda : List Turn
  cur : Nat
  cx : Cx
  ckRank : Nat
  fresh : Nat
  deriving DecidableEq, Repr

/-- The generator of a task that has loaded none (08 R207). -/
def Gen.reset : Gen :=
  { base := 0, ext := .replicate 4 0, str := .replicate 4 0, pos := 0, bound := false, vreg := 0, dir := false,
    valid := false, fifo := [], out := [], last := none }

/-- A task with every register 0 and nothing outstanding (assumption 3). -/
def Task.blank : Task :=
  { gen := 0, dom := 0, tile := 0, ctx := 0, keep := false, gang := none, share := 0, run := .run, pc := 0,
    entered := none, s := .replicate 64 0, v := .replicate 32 0, k := .replicate 8 0, m := .replicate 16 0, full := 0,
    mclk := .replicate 16 [], q := .replicate 8 [], gens := .replicate 8 Gen.reset, mbox := [], dead := 0,
    reasm := [], ipc := 0, vpc := 0, status := 0, fpflags := 0, faultaddr := 0, faultinfo := 0, wait := 0,
    wake := none, deadline := none, saveext := 0, ucnt := 0, hcycle := 0, hsent := 0, hrecv := 0, hinfo := 0,
    resident := 0, vq := [], saved := [], pend := [], cfdesc := 0, cfdone := 0, cfstat := 0,
    cfcopy := none, apPhase := false, stepping := false, yielded := false, wfsag := 0, wfbat := 0, wfrib := 0,
    wfkn := 0, fpend := [], wstop := [], werr := 0, wdone := 0, wdamp := 0, wsaved := [], wimage := none, sends := [],
    mcas := none, io := none, wire := none, signed := none, arrivedAt := none,
    joinRec := none, joinDie := 0, copied := [], sysReq := none, halting := none, closed := false, eretV := none, party := 0, clk := [], fenceRel := [],
    readRel := [], wclk := [] }

def Frame.reset : Frame := { gen := 0, dom := 0, kept := false, held := false }

def Tile.reset : Tile :=
  { lastBundle := 0, lastVector := 0, lines := [], store := [], msgout := 0, msgin := 0, btctl := 0, btpos := 0, domsel := .replicate 4 0 }

/-- An uninitialised cone (10 R259). -/
def Cone.reset : Cone :=
  { init := false, mode := 0, dom := 0, phase := false, e := 0, a := 0, pb := 0, holder := 0, waiters := [], lockers := [],
    clk := [], done := [] }

/-- 09 R214, R225; 14 R343. -/
def Wheel.reset : Wheel :=
  { tags := [], bat := [], rib := [], sag := [], kn := [], knSeen := [], rowDom := [], slotDom := [], unitDom := [], knDom := [],
    queues := [], stopped := [], runArray := none, runPort := none, wt := 0x1_1111_1111#64,
    wtNow := 0x1_1111_1111#64, credit := [],
    last := 8, startAt := none, bad := [] }

def Clus.reset : Clus :=
  { pins := [], cones := [], wheel := Wheel.reset, copies := [], lastPromise := [], copyClk := [], damperQ := [], lastGrant := none,
    leaves := [], injAt := [], injPug := false, injLast := 8, throttle := 0, winDefl := 0, winFlits := 0, win := 0, deflcnt := 0, ugroups := [], softErr := 0,
    coneErr := 0, dropErr := 0, lateCopies := 0 }

def Range.reset : Range := { lo := 0, hi := 0, next := 0, p := 0, min := 0, dom := 0, valid := false }

/-- 02 R54, R434; 14 R346, R350. -/
def Die.reset : Die :=
  { dqring := .replicate 16 0, dqage := .replicate 16 0x0100#64, queues := [], joinHeld := [], ranges := [],
    wireReqs := [], dampctl := 0x40_0040#64, xdelay := 0x0003_0D40#64, klog := [], klhead := 0, corrSram := 0,
    corrHbm := 0, poisoned := 0 }

def Dom.reset : Dom :=
  { tvbase := 0, ptroot := 0, ptSet := false, hchain := .replicate 8 0, bkpt := .replicate 4 0,
    scope := .replicate 16 0, scopeCopy := [], pool := none, dispatchErr := [] }

def DirEnt.reset : DirEnt :=
  { st := .i, cnt := 0, lastOwner := 0, upd := false, unread := false, orphan := [] }

def Mbox.reset : Mbox :=
  { data := [], err := false, hseq := 0, hcons := 0, dseq := 0, dcons := 0, task := 0, port := false }

def Msix.reset : Msix := { addr := 0, data := 0, masked := true, pending := false }

def Cx.reset : Cx :=
  { pc := 0, next := 0, first := 0, scal := 0, vs := false, rot := 0, vclk := [], target := none, fate := .done,
    trap := none, now := true }

/-- The device right after cold reset: every register at the value the manual gives, the others at the value that
assumptions 2 to 5 name, no task, nothing in flight. -/
def State.reset : State :=
  { part := .ev4096lm, present := BitVec.allOnes 512, rollback := 0, cycle := 0, devset := false, devnum := 0,
    fabthr := 0x80_6040_3020_1008#64, cohctl := 1, delBound := 0, delDrop := 0, slfold := 0, foldstat := 0,
    foldTo := 0, uetcfg := .replicate 8 0, uetrto := 0x4E20#64, uetretry := 8, uetmap := 0, uetTable := [],
    mem := [], poison := [], lost := [], recover := [], dir := [], tlb := [], wit := [], lineHist := [], shadow := none, shadowTold := false, rels := [], parties := 1,
    tasks := [], frames := [], doms := [], tiles := [], cluss := [], dies := [], gangs := [], gangSeq := 0,
    compacts := [], injq := [], flits := [], fk := 0, cycled := [], downLinks := [], slots := [], sends := [], rarrs := [], pbdecs := [], parked := [], barWrites := [], barReads := [], lockWaits := [], strays := [], gangJoins := [], uetOut := [], uetSeen := [], inbox := [], ended := [], signFails := [],
    nextId := 1, mboxes := [], msixHost := [], msixPeer := [], bootaddr := 0, bootstat := 0,
    measure := List.replicate 64 0, measured := 0, version := 0, pklimit := 1000, capping := false, sensors := [],
    ioErrors := 0, notices := [], outputs := [], agenda := [], cur := 0, cx := Cx.reset, ckRank := 0, fresh := 0 }

end Sys2Proof.Machine
end

