-- ==== Sys2Proof/Machine/Data.lean ====
section
/-! DEFINITION. Operations on the plain data of State: sparse maps, memory bytes, vector clocks, integers of a width. -/

namespace Sys2Proof.Machine

open Sys2Proof

/-! Sparse maps. -/

def Map.get? {α : Type} : Map α → Nat → Option α
  | [], _ => none
  | (k, v) :: r, x => if k = x then some v else Map.get? r x

def Map.getD {α : Type} (m : Map α) (x : Nat) (d : α) : α := (m.get? x).getD d

def Map.has {α : Type} (m : Map α) (x : Nat) : Bool := (m.get? x).isSome

/-- Replaces the entry of `x`, or inserts it in ascending place. -/
def Map.set {α : Type} : Map α → Nat → α → Map α
  | [], x, v => [(x, v)]
  | (k, w) :: r, x, v =>
    if k = x then (x, v) :: r
    else if x < k then (x, v) :: (k, w) :: r
    else (k, w) :: Map.set r x v

def Map.del {α : Type} (m : Map α) (x : Nat) : Map α := m.filter fun p => p.1 != x

def Map.keys {α : Type} (m : Map α) : List Nat := m.map (·.1)

/-- Applies `f` to the values. -/
def Map.mapVal {α β : Type} (m : Map α) (f : α → β) : Map β := m.map fun p => (p.1, f p.2)

/-! Memory (01 R33, 00 R6). -/

/-- One byte; a byte that nothing has written reads 0 (assumption 2). -/
def Mem.get : Mem → Nat → Byte
  | [], _ => 0
  | (k, b) :: r, x => if k = x then b else Mem.get r x

/-- `n` bytes from `a`. -/
def Mem.read (m : Mem) (a n : Nat) : List Byte := (List.range n).map fun i => m.get (a + i)

/-- The little-endian number in `n` bytes from `a` (00 R6). -/
def Mem.num (m : Mem) (a : Nat) : Nat → Nat
  | 0 => 0
  | n + 1 => (m.get a).toNat + 256 * Mem.num m (a + 1) n

/-- The cells of a byte list placed at `a`: zero bytes are left out. -/
def cellsOf (a : Nat) : List Byte → Mem
  | [] => []
  | b :: r => if b = 0 then cellsOf (a + 1) r else (a, b) :: cellsOf (a + 1) r

/-- Stores a byte list at `a`. -/
def Mem.write (m : Mem) (a : Nat) (bs : List Byte) : Mem :=
  m.filter (fun c => c.1 < a) ++ (cellsOf a bs ++ m.filter (fun c => a + bs.length ≤ c.1))

/-- The canonical form: strictly rising addresses and no byte equal to what an unlisted address reads as. -/
def Mem.sorted : Mem → Bool
  | [] => true
  | [_] => true
  | (a, _) :: (b, y) :: r => decide (a < b) && Mem.sorted ((b, y) :: r)

def Mem.wf (m : Mem) : Bool := m.sorted && m.all fun c => c.2 != 0

/-- The part of a memory in `[a, a+n)`. -/
def Mem.slice (m : Mem) (a n : Nat) : Mem := m.filter fun c => decide (a ≤ c.1) && decide (c.1 < a + n)

/-- The `n` bytes of a number, lowest first (00 R6). -/
def natBytes (x : Nat) : Nat → List Byte
  | 0 => []
  | n + 1 => BitVec.ofNat 8 x :: natBytes (x / 256) n

/-- The little-endian number of a byte list. -/
def bytesNum : List Byte → Nat
  | [] => 0
  | b :: r => b.toNat + 256 * bytesNum r

def wordBytes (x : Word) : List Byte := natBytes x.toNat 8

def Mem.writeNum (m : Mem) (a n x : Nat) : Mem := m.write a (natBytes x n)

/-! Integers of a width (06 R137). -/

/-- `x mod 2^w` read as a two's-complement integer. -/
def sint (w x : Nat) : Int :=
  let v := x % 2 ^ w
  if 2 ^ w ≤ 2 * v then (v : Int) - 2 ^ w else v

/-- `r mod 2^w`. -/
def wrap (w : Nat) (r : Int) : Nat := (r % (2 ^ w : Nat)).toNat

/-- Sign extension of a `w`-bit pattern to 64 bits. -/
def sext64 (w x : Nat) : Word := BitVec.ofNat 64 (wrap 64 (sint w x))

def bit1 (x : Word) (i : Nat) : Bool := x.getLsbD i

/-- Sets or clears bit `i`. -/
def setBit (x : Word) (i : Nat) (b : Bool) : Word :=
  if b then x ||| (1#64 <<< i) else x &&& ~~~(1#64 <<< i)

/-- Bits [hi:lo] of a word replaced. -/
def setBits (x : Word) (hi lo : Nat) (v : Nat) : Word :=
  let mask : Word := BitVec.ofNat 64 ((2 ^ (hi + 1 - lo) - 1) * 2 ^ lo)
  (x &&& ~~~mask) ||| (BitVec.ofNat 64 (v * 2 ^ lo) &&& mask)

def Word.bits (x : Word) (hi lo : Nat) : Nat := Nat.bits x.toNat hi lo

def divUp (a b : Nat) : Nat := (a + b - 1) / b

/-- Rounds down to a multiple of `n`. -/
def alignDown (a n : Nat) : Nat := a - a % n

/-! Vector clocks (11 R287, R296). -/

def Clock.at (c : Clock) (p : Nat) : Nat := Map.getD c p 0

def Clock.join (a b : Clock) : Clock :=
  b.foldl (fun acc x => Map.set acc x.1 (Nat.max x.2 (Clock.at acc x.1))) a

def Clock.bump (c : Clock) (p : Nat) : Clock := Map.set c p (Clock.at c p + 1)

/-! Lists. -/

/-- Replaces the elements that satisfy `p`. -/
def updWhere {α : Type} (l : List α) (p : α → Bool) (f : α → α) : List α := l.map fun x => if p x then f x else x

/-- Inserts `x` in ascending place unless present. -/
def insertNat : List Nat → Nat → List Nat
  | [], x => [x]
  | k :: r, x => if k = x then k :: r else if x < k then x :: k :: r else k :: insertNat r x

/-- The vector with the elements of a list, `d` where the list is too short. -/
def vecOf {α : Type} (n : Nat) (l : List α) (d : α) : Vector α n := Vector.ofFn fun i => l.getD i.val d

/-- A list cut into pieces of at most `n`, as many pieces as the last argument allows. -/
def chunks {α : Type} (n : Nat) (l : List α) : Nat → List (List α)
  | 0 => []
  | k + 1 => if l.isEmpty then [] else l.take n :: chunks n (l.drop n) k

end Sys2Proof.Machine
end

