-- ==== Sys2Proof/Machine/Space.lean ====
section
/-! DEFINITION. Where things are: unit numbers (01 R13-R16), the units' records, the physical map (01 R33-R35) and
address translation (01 R32, 21 R409-R411). -/

namespace Sys2Proof.Machine

open Sys2Proof

/-! Unit numbers (01 R13). -/

def clusOf (tile : Nat) : Nat := tile / 8
def dieOf (tile : Nat) : Nat := tile / 512
def dieOfClus (clus : Nat) : Nat := clus / 64
def ticOf (tile : Nat) : Nat := tile % 8

/-- Whether a cluster position is present (00 R2). -/
def State.isPresent (s : State) (clus : Nat) : Bool := s.present.getLsbD clus

/-- The present clusters in ascending CLUSNO order. -/
def State.presentList (s : State) : List Nat := (List.range 512).filter s.isPresent

/-- The flat cluster index (01 R13). -/
def State.flatIdx (s : State) (clus : Nat) : Nat := ((List.range clus).filter s.isPresent).length

/-- The cluster of a flat index (01 R14). -/
def State.clusAt (s : State) (idx : Nat) : Option Nat := s.presentList[idx]?

def State.numPresent (s : State) : Nat := s.presentList.length

/-! The units' records. -/

def State.task? (s : State) (t : Nat) : Option Task := s.tasks.get? t
/-- A task's record; a blank one where no task is. -/
def State.task (s : State) (t : Nat) : Task := s.tasks.getD t Task.blank
def State.setTask (s : State) (t : Nat) (x : Task) : State := { s with tasks := s.tasks.set t x }
def State.updTask (s : State) (t : Nat) (f : Task → Task) : State :=
  match s.task? t with
  | some x => s.setTask t (f x)
  | none => s
def State.delTask (s : State) (t : Nat) : State := { s with tasks := s.tasks.del t }

def State.tile (s : State) (t : Nat) : Tile := s.tiles.getD t Tile.reset
def State.setTile (s : State) (t : Nat) (x : Tile) : State := { s with tiles := s.tiles.set t x }

def State.clus (s : State) (c : Nat) : Clus := s.cluss.getD c Clus.reset
def State.setClus (s : State) (c : Nat) (x : Clus) : State := { s with cluss := s.cluss.set c x }
def State.updClus (s : State) (c : Nat) (f : Clus → Clus) : State := s.setClus c (f (s.clus c))

def State.die (s : State) (d : Nat) : Die := s.dies.getD d Die.reset
def State.setDie (s : State) (d : Nat) (x : Die) : State := { s with dies := s.dies.set d x }
def State.updDie (s : State) (d : Nat) (f : Die → Die) : State := s.setDie d (f (s.die d))

def State.dom (s : State) (d : Nat) : Dom := s.doms.getD d Dom.reset
def State.setDom (s : State) (d : Nat) (x : Dom) : State := { s with doms := s.doms.set d x }

def State.frame (s : State) (f : Nat) : Frame := s.frames.getD f Frame.reset
def State.setFrame (s : State) (f : Nat) (x : Frame) : State := { s with frames := s.frames.set f x }

def State.gang? (s : State) (g : Nat) : Option Gang := s.gangs.get? g
def State.setGang (s : State) (g : Nat) (x : Gang) : State := { s with gangs := s.gangs.set g x }
def State.updGang (s : State) (g : Nat) (f : Gang → Gang) : State :=
  match s.gang? g with
  | some x => s.setGang g (f x)
  | none => s

def State.wheel (s : State) (c : Nat) : Wheel := (s.clus c).wheel
def State.setWheel (s : State) (c : Nat) (w : Wheel) : State := s.updClus c fun x => { x with wheel := w }

def State.cone (s : State) (clus cid : Nat) : Cone := (s.clus clus).cones.getD cid Cone.reset
def State.setCone (s : State) (clus cid : Nat) (x : Cone) : State :=
  s.updClus clus fun c => { c with cones := c.cones.set cid x }

def State.compact? (s : State) (num : Nat) : Option Compact := s.compacts.find? fun c => c.num == num
def State.updCompact (s : State) (num : Nat) (f : Compact → Compact) : State :=
  { s with compacts := updWhere s.compacts (fun c => c.num == num) f }

/-- A compact that packets name by `id` (13 R333). -/
def State.updCompactId (s : State) (id : Nat) (f : Compact → Compact) : State :=
  { s with compacts := updWhere s.compacts (fun c => c.id == id) f }

def State.dirEnt (s : State) (line : Nat) : DirEnt := s.dir.getD line DirEnt.reset
def State.setDir (s : State) (line : Nat) (e : DirEnt) : State := { s with dir := s.dir.set line e }

def State.setMem (s : State) (m : Mem) : State := { s with mem := m }

/-- The firing program is told (assumption 13: what it is told is recorded). -/
def State.tell (s : State) (n : Notice) : State := { s with notices := s.notices ++ [n] }
def State.emit (s : State) (o : Output) : State := { s with outputs := s.outputs ++ [o] }

/-- A new number for something in flight. -/
def State.newId (s : State) : Nat × State := (s.nextId, { s with nextId := s.nextId + 1 })

/-- The next free value's index (assumption 11). -/
def State.free (s : State) : Nat × State := (s.fresh, { s with fresh := s.fresh + 1 })

/-- A condition of the bound of 20 R383 fails: a link or bridge is down, a die folds, or a die is in home-loss recovery. -/
def State.unbound (s : State) : Bool := !s.downLinks.isEmpty || s.foldstat != 0 || !s.recover.isEmpty

/-- The flits in flight when such a condition begins to fail are held to no bound. -/
def State.excuse (s : State) : State := { s with flits := s.flits.map fun f => { f with excused := f.excused || s.unbound } }

/-! The task whose instruction runs. -/

def State.me (s : State) : Task := s.task s.cur
def State.setMe (s : State) (x : Task) : State := s.setTask s.cur x
def State.myTile (s : State) : Nat := s.me.tile
def State.myClus (s : State) : Nat := clusOf s.me.tile
def State.myDie (s : State) : Nat := dieOf s.me.tile
def State.myDom (s : State) : Nat := s.me.dom

/-! The physical map (01 R33). -/

inductive PClass where
  | hbm
  | control
  | pcieHost
  | pciePeer
  | reserved
  deriving DecidableEq, Repr

def physClass (pa : Nat) : PClass :=
  if pa < 0x100_0000_0000 then .hbm
  else if pa < 0x8_0000_0000_0000 then .reserved
  else if pa < 0x8_0001_0000_0000 then .control
  else if pa < 0xC_0000_0000_0000 then .reserved
  else if pa < 0xD_0000_0000_0000 then .pcieHost
  else if pa < 0xE_0000_0000_0000 then .pciePeer
  else .reserved

/-- The home die of an HBM address (01 R35). -/
def homeDie (pa : Nat) : Nat := Nat.bits pa 39 37

/-- The home slice with every column powered (01 R35). -/
def homeHash (pa : Nat) : Nat :=
  Nat.xor (Nat.bits pa 10 7) <| Nat.xor (Nat.bits pa 14 11) <| Nat.xor (Nat.bits pa 18 15) <|
  Nat.xor (Nat.bits pa 22 19) <| Nat.xor (Nat.bits pa 26 23) <| Nat.xor (Nat.bits pa 30 27) <|
  Nat.xor (Nat.bits pa 34 31) (Nat.bits pa 36 35)

/-- The fold code of a die in an SLFOLD value (20 R385). -/
def foldOf (slfold : BitVec 16) (die : Nat) : Nat := Nat.bits slfold.toNat (2 * die + 1) (2 * die)

/-- The home slice under a fold (20 R388). -/
def foldSlice (fold h : Nat) : Nat :=
  if fold = 1 then h % 8 else if fold = 2 then 8 + h % 8 else h

def State.homeSlice (s : State) (pa : Nat) : Nat := foldSlice (foldOf s.slfold (homeDie pa)) (homeHash pa)

/-- A request for a line whose home moves waits while its die folds (20 R388). -/
def State.folding (s : State) (pa : Nat) : Bool :=
  let d := homeDie pa
  s.foldstat.getLsbD d &&
    foldSlice (foldOf s.slfold d) (homeHash pa) != foldSlice (foldOf s.foldTo d) (homeHash pa)

/-! Translation (21 R409-R411). -/

/-- What a translation grants (21 R409): physical address of the access, permissions, checked, swizzle, and the leaf
entry as it is cached for its 64 KiB page. `chose` says that a free choice was made (assumptions 7 and 8). -/
structure Tr where
  pa : Nat
  r : Bool
  w : Bool
  x : Bool
  chk : Bool
  swz : Nat
  entry : Word
  level : Nat
  chose : Bool := false
  tabs : List (Nat × Word) := []
  deriving DecidableEq, Repr

/-- A translation that fails: cause and level (21 R410). -/
structure TrFail where
  cause : Nat
  level : Nat
  deriving DecidableEq, Repr

def cPage : Nat := 0x07
def cPerm : Nat := 0x08
def cPhys : Nat := 0x09
def cTable : Nat := 0x0A

def pteV (e : Word) : Bool := bit1 e 0
def pteLeaf (e : Word) : Bool := bit1 e 1
def pteSize (e : Word) : Nat := Word.bits e 7 6
def ptePa (e : Word) : Nat := Word.bits e 51 16 * 65536
def pteSwz (e : Word) : Nat := Word.bits e 60 58

/-- Reserved bits of an entry (21 R409). -/
def pteReserved (e : Word) : Bool :=
  Word.bits e 63 62 != 0 || Word.bits e 57 52 != 0 || Word.bits e 15 8 != 0 || bit1 e 5

/-- The format rules of a table entry (21 R410). -/
def pteTableOk (e : Word) : Bool :=
  !pteReserved e && !bit1 e 61 && pteSwz e == 0 && pteSize e == 0 && !bit1 e 4 && !bit1 e 3 && !bit1 e 2
    && physClass (ptePa e) == .hbm

/-- The format rules of a leaf of `level` (21 R410). -/
def pteLeafOk (e : Word) (level : Nat) : Bool :=
  !pteReserved e && pteSize e != 3 && (!bit1 e 3 || bit1 e 2)
    && (if level = 2 then pteSize e == 2 else pteSize e != 2)
    && ptePa e % (if pteSize e = 2 then 2 ^ 30 else if pteSize e = 1 then 2 ^ 21 else 2 ^ 16) == 0

/-- The leaf that maps `va`, as an entry for its 64 KiB page. -/
def leafFor (e : Word) (va : Nat) : Word :=
  let off := if pteSize e = 2 then alignDown (va % 2 ^ 30) 65536
    else if pteSize e = 1 then alignDown (va % 2 ^ 21) 65536 else 0
  setBits e 51 16 ((ptePa e + off) / 65536)

def trOf (e : Word) (va level : Nat) : Tr :=
  { pa := ptePa e + va % 65536, r := bit1 e 2, w := bit1 e 3, x := bit1 e 4, chk := bit1 e 61, swz := pteSwz e,
    entry := e, level := level }

/-- Reads a table entry as a coherent read of HBM (21 R409); a lost or poisoned datum is a machine check (20 R389,
23 R431). -/
def State.readPte (s : State) (pa : Nat) : Except TrFail Word :=
  if s.lost.contains (homeDie pa) then .error ⟨0x39, 0⟩
  else if s.poison.contains (pa / 8) then .error ⟨0x3A, 0⟩
  else .ok (BitVec.ofNat 64 (s.mem.num pa 8))

/-- The bits of an address below the index of a level's entries (21 R409). -/
def levelBits (level : Nat) : Nat := if level = 1 then 42 else if level = 2 then 29 else 16

/-- The entries cached for an address at a level, but `now` (21 R411). -/
def State.cachedAt (s : State) (dom level va : Nat) (now : Option Word) : List Word :=
  (s.tlb.filter fun t => t.dom == dom && t.level == level && t.page == va / 2 ^ levelBits level && some t.entry != now).map (·.entry)

/-- The number of the occurrence of a free choice: the choices of one turn agree with each other (12 R313). -/
def State.choiceAt (s : State) : Nat := s.fresh * 2 ^ 64 + s.cycle.toNat

/-- One of the cached entries, or none where the one read is used (21 R411, assumption 7). -/
def State.pickCached (s : State) (level va : Nat) (old : List Word) : Option Word :=
  old[Config.translationPick ((s.choiceAt * 4 + level) * 2 ^ 64 + va) % (old.length + 1)]?

/-- The entry of a level that a walk uses, and whether it chose it: the one in memory, or a table entry that the walker has
cached (21 R411). -/
def State.walkEntry (s : State) (dom level va pa : Nat) : Except TrFail (Word × Bool) :=
  let now := s.readPte pa
  let old := s.cachedAt dom level va now.toOption
  if old.isEmpty then now.map fun e => (e, false)
  else match s.pickCached level va old with
    | some e => .ok (e, true)
    | none => now.map fun e => (e, true)

/-- The entry that a walk uses for a leaf: of a larger page's group, any one of the entries (21 R410); and whether they
differ. -/
def State.groupLeaf (s : State) (table idx : Nat) (e : Word) (level va : Nat) : Except TrFail (Word × Bool) :=
  let n := if level = 3 && pteSize e == 1 then 32 else if level = 2 && pteSize e == 2 then 2 else 1
  if n = 1 then .ok (e, false)
  else
    let base := table + 8 * (alignDown idx n)
    let same := (List.range n).all fun i => s.mem.num (base + 8 * i) 8 == e.toNat
    if same then .ok (e, false)
    else (s.readPte (base + 8 * (Config.groupEntry (s.choiceAt * 2 ^ 64 + va) % n))).map fun w => (w, true)

/-- A checked leaf (21 R410). -/
def leafResult (e : Word × Bool) (va level : Nat) : Except TrFail Tr :=
  if !pteV e.1 then .error ⟨cPage, level⟩
  else if !pteLeaf e.1 || !pteLeafOk e.1 level then .error ⟨cTable, level⟩
  else .ok { trOf (leafFor e.1 va) va level with chose := e.2 }

/-- The walk of a domain's three levels (21 R409, R410). It notes the table entries that it used. -/
def State.walk (s : State) (dom va : Nat) : Except TrFail Tr := do
  let root := alignDown (s.dom dom).ptroot.toNat 65536
  let (e1, c1) ← s.walkEntry dom 1 va (root + 8 * Nat.bits va 54 42)
  if !pteV e1 then throw ⟨cPage, 1⟩
  if pteLeaf e1 || !pteTableOk e1 then throw ⟨cTable, 1⟩
  let (e2, c2) ← s.walkEntry dom 2 va (ptePa e1 + 8 * Nat.bits va 41 29)
  if !pteV e2 then throw ⟨cPage, 2⟩
  if pteLeaf e2 then
    let g ← s.groupLeaf (ptePa e1) (Nat.bits va 41 29) e2 2 va
    let tr ← leafResult g va 2
    return { tr with chose := tr.chose || c1 || c2, tabs := [(1, e1)] }
  else
    if !pteTableOk e2 then throw ⟨cTable, 2⟩
    let e3 ← s.readPte (ptePa e2 + 8 * Nat.bits va 28 16)
    if !pteV e3 then throw ⟨cPage, 3⟩
    if !pteLeaf e3 then throw ⟨cTable, 3⟩
    let g ← s.groupLeaf (ptePa e2) (Nat.bits va 28 16) e3 3 va
    let tr ← leafResult g va 3
    return { tr with chose := tr.chose || c1 || c2, tabs := [(1, e1), (2, e2)] }

/-- The places of table entries that a walk reads (21 R409), as far as it goes. -/
def State.walkReads (s : State) (dom va : Nat) : List Nat :=
  if dom == 0 && !(s.dom 0).ptSet then []
  else
    let p1 := alignDown (s.dom dom).ptroot.toNat 65536 + 8 * Nat.bits va 54 42
    match s.walkEntry dom 1 va p1 with
    | .error _ => [p1]
    | .ok (e1, _) =>
      if !pteV e1 || !pteTableOk e1 then [p1]
      else
        let p2 := ptePa e1 + 8 * Nat.bits va 41 29
        match s.walkEntry dom 2 va p2 with
        | .error _ => [p1, p2]
        | .ok (e2, _) => if !pteV e2 || pteLeaf e2 || !pteTableOk e2 then [p1, p2] else [p1, p2, ptePa e2 + 8 * Nat.bits va 28 16]

/-- Domain 0 before its PTROOT is written (assumption 12): every physical address maps to itself, read, write and
fetch allowed, unchecked. -/
def identTr (va : Nat) : Except TrFail Tr :=
  if va < 2 ^ 52 then
    .ok { pa := va, r := true, w := true, x := true, chk := false, swz := 0,
          entry := BitVec.ofNat 64 (alignDown va 65536 + 0x1F), level := 3 }
  else .error ⟨cPage, 1⟩

/-- The translation of `va` (bits [63:55] already zero): the walked one, or a cached one that a TLBI has not yet
removed (21 R411). -/
def State.translate (s : State) (dom va : Nat) : Except TrFail Tr :=
  let walked := if dom == 0 && !(s.dom 0).ptSet then identTr va else s.walk dom va
  let old := s.cachedAt dom 3 va (walked.toOption.map (·.entry))
  if old.isEmpty then walked
  else match s.pickCached 3 va old with
    | some e => .ok { trOf e va (if pteSize e = 2 then 2 else 3) with chose := true }
    | none => walked.map fun w => { w with chose := true }

/-- A translation or a table entry is cached beside those that an access may still use. -/
def addTlb (l : List TlbEnt) (e : TlbEnt) : List TlbEnt := if l.contains e then l else l ++ [e]

/-- A used translation is cached, with the table entries of its walk (21 R411). The next choice is a new one. -/
def State.fillTlb (s0 : State) (dom va : Nat) (t : Tr) : State :=
  let s := if t.chose then { s0 with fresh := s0.fresh + 1 } else s0
  let add := fun l (p : Nat × Word) => addTlb l { dom := dom, level := p.1, page := va / 2 ^ levelBits p.1, entry := p.2 }
  { s with tlb := ((3, t.entry) :: t.tabs).foldl add s.tlb }

end Sys2Proof.Machine
end

