-- ==== Sys2Proof/Machine/Order.lean ====
section
/-! DEFINITION. Happens-before as vector clocks, scopes, releases and acquires (11 R287-R296), and conflicts on checked
pages (11 R298-R301). A party's accesses carry its epoch; a release publishes the party's clock and begins a new epoch,
so an access of another party happens-before the holder of a clock exactly when the clock reaches that epoch. -/

namespace Sys2Proof.Machine

open Sys2Proof

/-- Whether a tile belongs to a scope instance (11 R290). -/
def ScopeInst.has (i : ScopeInst) (tile : Nat) : Bool :=
  match i with
  | .tile t => t == tile
  | .clus c => clusOf tile == c
  | .die d => dieOf tile == d
  | .dev => true
  | .fab => true
  | .named mask here => here && mask.getLsbD (clusOf tile)

/-- The scope instance that SCOPE and SCOPEN name around a tile (11 R290). `none`: a named scope whose pointer is
zero, that is never written (07 R164). -/
def State.scopeInst (s : State) (dom tile scope scopen : Nat) : Option ScopeInst :=
  match scope with
  | 0 => some (.tile tile)
  | 1 => some (.clus (clusOf tile))
  | 2 => some (.die (dieOf tile))
  | 3 => some .dev
  | 4 => some .fab
  | _ =>
    let d := s.dom dom
    if d.scope.toList.getD scopen 0 == 0 then none
    else
      match d.scopeCopy.get? scopen with
      | none => none
      | some (mask, devs) =>
        let ents := (List.range 32).map fun i => Nat.bits devs.toNat (16 * i + 15) (16 * i)
        let used := ents.filter (· != 0xFFFF)
        some (.named mask (used.isEmpty || used.contains s.devnum.toNat))

/-- ORDER codes that release, and that acquire (07 R164, 11 R289). -/
def ordRel (o : Nat) : Bool := o == 2 || o == 3 || o == 4
def ordAcq (o : Nat) : Bool := o == 1 || o == 3 || o == 4

/-- The clock of a task's next access: a V-stream instruction acts as at its issue (11 R288). -/
def State.accClk (s : State) : Clock := if s.cx.vs then s.cx.vclk else s.me.clk

/-- A release by task `t`: the clock it publishes; later accesses of `t` belong to a new epoch. -/
def State.release (s : State) (t : Nat) : Clock × State :=
  let k := (s.task t).clk
  (k, s.updTask t fun x => { x with clk := Clock.bump k x.party })

/-- The key of a task's copy of a code line in its tile. -/
def lineKey (t pa : Nat) : Nat := t * 2 ^ 52 + pa / 64

/-- The tile's copies of a task's code lines are discarded: its next fetch sees every store that happens-before it
(04 R106). -/
def State.dropLines (s : State) (t : Nat) : State :=
  let n := (s.task t).tile
  let x := s.tile n
  if x.lines.isEmpty then s else s.setTile n { x with lines := x.lines.filter fun p => p.1 / 2 ^ 52 != t }

/-- An acquire by task `t` of a released or published clock; it discards the groups that its input streams have read
and not popped (08 R210), and the copies of its code lines (04 R106). -/
def State.acquire (s : State) (t : Nat) (k : Clock) : State :=
  (s.dropLines t).updTask t fun x =>
    { x with clk := Clock.join x.clk k
             gens := x.gens.map fun g => { g with fifo := [] } }

/-- An acquire joins the clock of a publication: the publisher's own component alone (11 R295, R296). -/
def pubClock (party epoch : Nat) : Clock := [(party, epoch)]

/-- The clock of an access not yet made by a party whose accesses `k` covers up to an epoch: it belongs to a later one (11
R296). -/
def Clock.pass (k c : Clock) (party : Nat) : Clock :=
  let e := Clock.at k party
  if e != 0 && decide (Clock.at c party ≤ e) then Clock.join c [(party, e + 1)] else c

/-- `k` has been published for the accesses made so far: those that a task makes from now on, its queued instructions among
them, are in a later epoch. -/
def Task.closeEpoch (k : Clock) (t : Task) : Task :=
  { t with
    clk := Clock.pass k t.clk t.party
    vq := t.vq.map fun e => { e with clk := Clock.pass k e.clk t.party } }

/-- The parties that a published clock covers begin new epochs: tasks with their Wheel commands still to start, and the reads and
writes of copies. -/
def State.closeEpochs (s : State) (k : Clock) : State :=
  let party := fun (t : Nat) => (s.task t).party
  let cmd : WCmd → WCmd := fun c => if c.begun.isEmpty then { c with clk := Clock.pass k c.clk (party c.task) } else c
  let copy : Copy → Copy := fun c => { c with clk := (c.party :: c.wparties).foldl (Clock.pass k) c.clk }
  { s with
    tasks := s.tasks.mapVal (Task.closeEpoch k)
    cluss := s.cluss.mapVal fun c =>
      { c with copies := c.copies.map copy, wheel := { c.wheel with queues := c.wheel.queues.mapVal fun q => q.map cmd } } }

/-- A new party's number; the device number makes it the party's own among all devices (11 R287). -/
def State.newParty (s : State) : Nat × State := (s.devnum.toNat * 2 ^ 64 + s.parties, { s with parties := s.parties + 1 })

/-- The party that a part belongs to: a copy's writes are made by parts of its party, so that a publication can give those of one
packet alone (11 R294, R295). -/
def partyOf (p : Nat) : Nat := p % 2 ^ 128

/-- A new part of a party. -/
def State.partParty (s : State) (p : Nat) : Nat × State := (partyOf p + 2 ^ 128 * s.parties, { s with parties := s.parties + 1 })

/-- Whether an earlier access conflicts with one by `party` whose clock is `k` (11 R299). -/
def Wit.conflicts (x : Wit) (party : Nat) (k : Clock) (wr data : Bool) : Bool :=
  partyOf x.party != partyOf party && (x.wr || wr) && (x.data || data) && Clock.at k x.party < x.epoch

/-- The aligned 8-byte words that `n` bytes from `pa` touch. -/
def wordsOf (pa n : Nat) : List Nat :=
  if n = 0 then [] else (List.range ((pa + n - 1) / 8 - pa / 8 + 1)).map fun i => pa / 8 + i

/-- The recorded accesses of the touched words that conflict with an access. -/
def State.conflictsAt (s : State) (pa n party : Nat) (k : Clock) (wr data : Bool) : List Wit :=
  (wordsOf pa n).flatMap fun w => (s.wit.getD w []).filter fun x => x.conflicts party k wr data

/-- Records an access of one word. An entry that it repeats is not stored twice. -/
def addWit (x : Wit) (m : Map (List Wit)) (w : Nat) : Map (List Wit) :=
  let l := m.getD w []
  if l.contains x then m else m.set w (l ++ [x])

/-- Records a checked access (11 R301). -/
def State.witness (s : State) (pa n : Nat) (x : Wit) : State :=
  { s with wit := (wordsOf pa n).foldl (addWit x) s.wit }

/-! Waiting at a locked line (07 R179 step 3). -/

/-- Whether `x` may pass the line: nobody came to its home before it. -/
def State.firstAt (s : State) (line : Nat) (x : Waiter) : Bool :=
  match s.lockWaits.find? fun y => y.1 == line with
  | none => true
  | some y => y.2 == x

def State.mayPass (s : State) (line p : Nat) : Bool := s.firstAt line (.party p)

/-- `x` joins the line's queue, if it is not in it. -/
def State.queueAt (s : State) (line : Nat) (x : Waiter) : State :=
  if s.lockWaits.contains (line, x) then s else { s with lockWaits := s.lockWaits ++ [(line, x)] }

/-- `x` gives up its places in the queues. -/
def State.unqueue (s : State) (x : Waiter) : State := { s with lockWaits := s.lockWaits.filter fun y => y.2 != x }

/-! The witness bits (11 R301). -/

/-- Whether accesses of words need more new entries than the shadow region has room for. -/
def State.witFull (s : State) (l : List (Nat × Wit)) : Bool :=
  let new := (l.filter fun p => !(s.wit.getD p.1 []).contains p.2).length
  match s.shadow with
  | none => false
  | some room => new != 0 && decide (room < (s.wit.map fun p => p.2.length).foldl (· + ·) 0 + new)

/-- Whether an access needs an entry that the shadow region has no room for. -/
def State.shadowFull (s : State) (pa n : Nat) (x : Wit) : Bool := s.witFull ((wordsOf pa n).map fun w => (w, x))

/-- The releases carried by the bytes of a location (11 R292), without repeats. -/
def State.relsAt (s : State) (pa n : Nat) : List Rel :=
  ((List.range n).flatMap fun i => s.rels.getD (pa + i) []).eraseDups

/-- What a write leaves at one byte: an RMW keeps the release sequence, any other write ends it (11 R292). -/
def addRels (rmw : Bool) (new : List Rel) (m : Map (List Rel)) (a : Nat) : Map (List Rel) :=
  let l := (if rmw then m.getD a [] else []) ++ new
  if l.isEmpty then m.del a else m.set a l

/-- What a write leaves at its bytes. -/
def State.setRels (s : State) (pa n : Nat) (rmw : Bool) (new : List Rel) : State :=
  { s with rels := ((List.range n).map (pa + ·)).foldl (addRels rmw new) s.rels }

/-- The scope rule (11 R291). -/
def Rel.meets (r : Rel) (inst : ScopeInst) (tile : Nat) : Bool :=
  r.inst.has r.tile && r.inst.has tile && inst.has r.tile && inst.has tile

/-- What an acquiring access of an instance joins from the bytes it reads (11 R289, R292). -/
def State.acqAt (s : State) (pa n : Nat) (inst : Option ScopeInst) (tile : Nat) : Clock :=
  match inst with
  | none => []
  | some i => ((s.relsAt pa n).filter fun r => r.meets i tile).foldl (fun k r => Clock.join k r.clk) []

/-- The instance at which an ORDER acquires, if it does. -/
def acqInst (order : Nat) (inst : ScopeInst) : Option ScopeInst := if ordAcq order then some inst else none

/-- The acquire side of an atomic read by the current task (11 R289, R292): an acquiring order joins every matching
release; any order remembers what a later fence may acquire. -/
def State.atomicRead (s : State) (pa n order : Nat) (inst : ScopeInst) : State :=
  let found := s.relsAt pa n
  let s1 := s.updTask s.cur fun x => { x with readRel := (x.readRel ++ found).eraseDups }
  if ordAcq order then
    s1.acquire s.cur ((found.filter fun r => r.meets inst s.myTile).foldl (fun k r => Clock.join k r.clk) [])
  else s1

/-- The release side of an atomic write by the current task (11 R289, R292): a releasing order publishes at its scope,
and every write carries the task's earlier release fences. -/
def State.atomicWrite (s : State) (pa n order : Nat) (inst : ScopeInst) (rmw : Bool) : State :=
  let fences := s.me.fenceRel
  if ordRel order then
    let (k, s1) := s.release s.cur
    s1.setRels pa n rmw ({ clk := k, inst := inst, tile := s.myTile } :: fences)
  else s.setRels pa n rmw fences

/-- A FENCE of the current task (11 R292). A later release fence of the same instance replaces an earlier one. -/
def State.fence (s : State) (order : Nat) (inst : ScopeInst) : State :=
  let s1 :=
    if ordAcq order then
      s.acquire s.cur
        ((s.me.readRel.filter fun r => r.meets inst s.myTile).foldl (fun k r => Clock.join k r.clk) [])
    else s
  if ordRel order then
    let (k, s2) := s1.release s.cur
    s2.updTask s.cur fun x =>
      { x with fenceRel := { clk := k, inst := inst, tile := x.tile } :: x.fenceRel.filter fun r => r.inst != inst }
  else s1

end Sys2Proof.Machine
end

