-- ==== Sys2Proof/Machine/Directory.lean ====
section
/-! DEFINITION. The directory of the homes (20 R386, R387): the state of a line after each request. A line is a
physical address ÷ 128. The device keeps one coherent value for each byte, so these operations move no data. -/

namespace Sys2Proof.Machine

open Sys2Proof

/-- The entry with the adaptive-update counter and mode cleared (20 R387). -/
def DirEnt.calm (e : DirEnt) : DirEnt := { e with cnt := 0, upd := false, unread := false }

/-- A touch by a cluster that is neither the counted owner nor its sharer clears the counter (20 R387). -/
def DirEnt.touch (e : DirEnt) (c : Nat) : DirEnt :=
  if e.lastOwner / 512 = c || e.lastOwner % 512 = c then e else e.calm

/-- The line leaves update mode by invalidating the sharer that is not the owner (20 R387). -/
def DirEnt.leaveUpdate (e : DirEnt) : DirEnt :=
  if e.upd then { e with st := .s [e.lastOwner / 512], cnt := 0, upd := false, unread := false } else e

/-- A cluster becomes a sharer: a fifth pointer turns the pointers into a die vector (20 R386). -/
def addSharer (cs : List Nat) (c : Nat) : DirSt :=
  if cs.contains c then .s cs
  else if cs.length < 4 then .s (cs ++ [c])
  else .sd (BitVec.ofNat 8 ((cs ++ [c]).foldl (fun v x => v ||| 2 ^ dieOfClus x) 0))

/-- Read by cluster `c` (20 R386, R387). -/
def DirEnt.read (e : DirEnt) (c : Nat) : DirEnt :=
  match e.st with
  | .i => { e.calm with st := .e c }
  | .s cs =>
    if e.upd then
      if cs.contains c then { e with unread := if e.lastOwner % 512 == c then false else e.unread }
      else { e.leaveUpdate with st := addSharer [e.lastOwner / 512] c }
    else if cs.contains c then e
    else { e.touch c with st := addSharer cs c }
  | .sd v => { e.touch c with st := .sd (v ||| BitVec.ofNat 8 (2 ^ dieOfClus c)) }
  | .e x => if x = c then e else { e.touch c with st := .s [x, c] }
  | .m x => if x = c then e else { e.touch c with st := .s [x, c] }
  | _ => e

/-- A store by the owner of a line in update mode: the home writes it and pushes the changed bytes to the sharer
(20 R387). -/
def DirEnt.push (e : DirEnt) : DirEnt :=
  if e.unread then
    if e.cnt ≤ 1 then e.leaveUpdate else { e with cnt := e.cnt - 1 }
  else { e with unread := true }

/-- The single other sharer of a line held by `c` and one more. -/
def otherSharer (cs : List Nat) (c : Nat) : Option Nat :=
  match cs with
  | [x, y] => if x = c then some y else if y = c then some x else none
  | _ => none

/-- Read for ownership, or upgrade, by cluster `c`, with its store where `store` says so (20 R386, R387). `upden` is COHCTL.UPDEN.
In update mode a request of the owner without a store pushes nothing. -/
def DirEnt.own (e : DirEnt) (c : Nat) (upden store : Bool) : DirEnt :=
  match e.st with
  | .i => { e.calm with st := .m c }
  | .s cs =>
    if e.upd then
      if e.lastOwner / 512 = c then (if store then e.push else e) else { e.leaveUpdate with st := .m c }
    else if !upden then { e.calm with st := .m c }
    else
      match otherSharer cs c with
      | some y =>
        let n := if e.lastOwner = c * 512 + y then Nat.min 3 (e.cnt + 1) else 1
        if n = 3 then { e with cnt := 3, lastOwner := c * 512 + y, upd := true, unread := store }
        else { e with st := .m c, cnt := n, lastOwner := c * 512 + y, upd := false, unread := false }
      | none => { e.touch c with st := .m c }
  | .sd _ | .e _ | .m _ => { e.touch c with st := .m c }
  | _ => e

/-- A near atomic: it takes the line out of update mode, and does not leave it there (20 R387). -/
def DirEnt.ownAtomic (e : DirEnt) (c : Nat) (upden : Bool) : DirEnt :=
  let x := e.leaveUpdate.own c upden true
  if x.upd then { x.calm with st := .m c } else x

/-- Far atomic, CAS or MCAS lock: every copy is recalled or invalidated and no cache holds the line (20 R386). -/
def DirEnt.far (e : DirEnt) : DirEnt :=
  match e.st with
  | .i | .s _ | .sd _ | .e _ | .m _ => { e.calm with st := .i }
  | _ => e

/-- WBL by cluster `c` (07 R167, 20 R386). -/
def DirEnt.writeBack (e : DirEnt) (c : Nat) : DirEnt :=
  match e.st with
  | .m x => if x = c then { e with st := .e c } else e
  | _ => e

/-- INVL by `c`, or eviction from its slab (07 R167, 20 R386). -/
def DirEnt.drop (e : DirEnt) (c : Nat) : DirEnt :=
  match e.st with
  | .s cs =>
    if cs.contains c then
      let e1 := e.leaveUpdate
      let rest := cs.filter (· != c)
      if rest.isEmpty then { e1.calm with st := .i } else { e1 with st := .s rest }
    else e
  | .e x => if x = c then { e.calm with st := .i } else e
  | .m x => if x = c then { e.calm with st := .i } else e
  | _ => e

def State.updDir (s : State) (line : Nat) (f : DirEnt → DirEnt) : State := s.setDir line (f (s.dirEnt line))

def State.upden (s : State) : Bool := bit1 s.cohctl 0

/-- The lines that `n` bytes from `pa` touch. -/
def linesOf (pa n : Nat) : List Nat :=
  if n = 0 then [] else (List.range ((pa + n - 1) / 128 - pa / 128 + 1)).map fun i => pa / 128 + i

def State.dirReadAt (s : State) (c pa n : Nat) : State :=
  (linesOf pa n).foldl (fun t l => t.updDir l (·.read c)) s

/-- Stores by cluster `c`. -/
def State.dirOwnAt (s : State) (c pa n : Nat) : State :=
  (linesOf pa n).foldl (fun t l => t.updDir l (·.own c t.upden true)) s

/-- Near atomics by cluster `c`. -/
def State.dirAtomicAt (s : State) (c pa n : Nat) : State :=
  (linesOf pa n).foldl (fun t l => t.updDir l (·.ownAtomic c t.upden)) s

/-- The clusters that hold a line pinned for a compact or a task, if any. -/
def DirEnt.pinnedBy (e : DirEnt) : Option (Nat × Option Nat) :=
  match e.st with
  | .p n c => some (n, some c)
  | .pNone n => some (n, none)
  | _ => none

end Sys2Proof.Machine
end

