-- ==== Sys2Proof/Machine/Access.lean ====
section
/-! DEFINITION. The checks before an access (07 R161) and the effect of one read or write of device memory. -/

namespace Sys2Proof.Machine

open Sys2Proof

def cAddress : Nat := 0x05
def cAlign : Nat := 0x06
def cPinned : Nat := 0x0B
def cConflict : Nat := 0x0C
def cScope : Nat := 0x0D
def cOperand : Nat := 0x0E
def cHomeLost : Nat := 0x39
def cMemCheck : Nat := 0x3A

/-! Registers (01 R17-R21). -/

/-- s0 reads zero (01 R19). -/
def Task.sreg (t : Task) (n : BitVec 6) : Word := if n = 0 then 0 else t.s[n.toNat]

/-- k0 reads all ones (01 R19). -/
def Task.kreg (t : Task) (n : BitVec 3) : KReg := if n = 0 then BitVec.allOnes 128 else t.k[n.toNat]

def Task.mreg (t : Task) (n : BitVec 4) : Word := t.m[n.toNat]

/-- The party that makes an access: its domain, tile, clock, and the compact whose member task it is (11 R287,
13 R331); `cpyrOf` is the compact whose member issued the CPYR that makes it, and
`rd` the reader as which it parks (13 R331). -/
structure Who where
  dom : Nat
  tile : Nat
  party : Nat
  clk : Clock
  member : Option Nat
  cpyrOf : Option Nat := none
  rd : Option Reader := none
  deriving DecidableEq, Repr

/-- An access: `n` bytes at `va`, aligned to `al`; `data` is false for an atomic access; `ctl` admits device control
space (07 R161 step 5) and `pcie` PCIe space (01 R33); `plain` takes no part in conflict detection (11 R299, 13
R325); an access with `acq` acquires at that instance what the bytes carry, which happens-before it (11 R289). -/
structure Acc where
  va : Word
  n : Nat
  al : Nat
  wr : Bool
  data : Bool := true
  ctl : Bool := false
  pcie : Bool := false
  plain : Bool := false
  acq : Option ScopeInst := none
  deriving DecidableEq, Repr

/-- The outcome of the checks: the access may be made at `pa`; a trap; a wait; a wait at the home of a line that an MCAS
has locked; a parked read. -/
inductive Chk where
  | ok (pa : Nat) (t : Tr)
  | trap (t : Trap)
  | stall
  | locked (line : Nat)
  | park (comp line : Nat)
  deriving DecidableEq, Repr

/-- The signed compact of a gang: one that has passed Signing (13 R321). -/
def State.compactOfGang (s : State) (g : Nat) : Option Compact :=
  s.compacts.find? fun c => c.gang == g && c.st != .signing && c.st != .aborting

def State.memberOf (s : State) (t : Task) : Option Nat :=
  t.gang.bind fun g => (s.compactOfGang g).map (·.num)

/-- The party of the current task's access. -/
def State.whoMe (s : State) : Who :=
  let t := s.me
  { dom := t.dom, tile := t.tile, party := t.party, clk := s.accClk, member := s.memberOf t,
    rd := some (.task s.cur s.cx.vs) }

/-- The party of an access that task `t` makes outside an instruction. -/
def State.whoOf (s : State) (t : Nat) (r : Reader) : Who :=
  let x := s.task t
  { dom := x.dom, tile := x.tile, party := x.party, clk := x.clk, member := s.memberOf x, rd := some r }

/-- Whether a plan entry is selected for a superstep (13 R318). -/
def planSelected (e : PlanEntry) (step : Word) : Bool := e.per == 0 || step.toNat % e.per == e.off

/-- The plan entries of every device. -/
def Compact.allPlan (c : Compact) : List PlanEntry := c.plan ++ c.others.map (·.2)

/-- Bytes of one shadow area of a compact on this device (13 R319). -/
def Compact.shadowBytes (c : Compact) : Nat := 128 + 16384 * (c.pins.foldl (fun n p => n + p.pages) 0)

/-- Whether `n` bytes at a physical address meet the area of `size` bytes at `area` in a domain. -/
def State.areaMeets (s : State) (dom area size pa n : Nat) : Bool :=
  let base := alignDown area 65536
  (List.range (size / 65536 + 2)).any fun i =>
    let lo := Nat.max area (base + 65536 * i)
    let hi := Nat.min (area + size) (base + 65536 * (i + 1))
    decide (lo < hi) && match s.translate dom lo with
      | .ok t => decide (t.pa < pa + n) && decide (pa < t.pa + (hi - lo))
      | .error _ => false

/-- Whether a physical address lies in a shadow area of a signed compact (13 R334). -/
def State.inShadow (s : State) (pa n : Nat) : Bool :=
  s.compacts.any fun c => c.st != .signing && c.shadowA != 0 &&
    (s.areaMeets c.dom c.shadowA c.shadowBytes pa n || s.areaMeets c.dom c.shadowB c.shadowBytes pa n)

/-- Whether a line of cluster `clus` is guarded: it holds a destination byte of an early entry selected for the
current superstep (13 R330), by whatever mapping the access reaches it. -/
def State.guards (s : State) (c : Compact) (clus line : Nat) : Bool :=
  c.early && (c.st == .compute || c.st == .transfer || c.st == .stopped) && c.allPlan.any fun e =>
    planSelected e c.step && e.dev == s.devnum.toNat && e.clus == clus
      && s.areaMeets c.dom (alignDown e.dst.toNat 128) (e.dst.toNat % 128 + e.len) (line * 128) 128

/-- Whether a compact serves the reads parked at its lines now (13 R332, R337). -/
def Compact.serves (c : Compact) : Bool := c.st == .boundary || (c.st == .aborting && c.moving)

/-- A read parks at a line (13 R331); one that comes while the compact serves is served with the others. -/
def State.parkAt (s : State) (r : Reader) (comp line : Nat) : State :=
  if s.parked.any fun p => p.reader == r && p.comp == comp && p.line == line then s
  else
    let clk := (s.compact? comp).bind fun c => if c.serves then some c.boundaryClk else none
    { s with parked := s.parked ++ [{ reader := r, comp := comp, line := line, clk := clk }] }

/-- A reader's parked reads are cancelled. -/
def State.unparkRead (s : State) (r : Reader) : State := { s with parked := s.parked.filter fun p => p.reader != r }

/-- The parked reads of a reader whose boundary serves them. -/
def State.servedOf (s : State) (r : Option Reader) : List Parked := s.parked.filter fun p => p.clk.isSome && some p.reader == r

/-- Step 6 of 07 R161 for one line, with the wait at a locked line (07 R181) and the machine checks of lost homes and
orphans (20 R389, R390). A read in Boundary, or in an abort, goes on once it has been listed among the reads that are
served there (13 R331, R337); while a compact dissolves, requests wait (13 R338). `none` lets the access go on. -/
def State.lineCheck (s : State) (w : Who) (a : Acc) (line : Nat) : Option Chk :=
  let bad : Nat → Chk := fun c => .trap { cause := c, addr := a.va, w := a.wr }
  match (s.dirEnt line).st with
  | .o _ => some (bad cHomeLost)
  | .l _ => some (.locked line)
  | .p 0 _ => none
  | .p n c =>
    match s.compact? n with
    | none => none
    | some k =>
      if k.st == .dissolving then some .stall
      else if w.member == some n then
        if clusOf w.tile = c && !s.guards k c line then none else some (bad cPinned)
      else if a.wr || (w.cpyrOf == some n && clusOf w.tile != c) then some (bad cPinned)
      else if (k.st == .boundary || k.st == .aborting) && (s.servedOf w.rd).any (fun p => p.comp == n && p.line == line) then none
      else some (.park n line)
  | .pNone n =>
    if a.wr then some (bad cPinned)
    else if (s.servedOf w.rd).any fun p => p.comp == n && p.line == line then none
    else some (.park n line)
  | _ => if s.mayPass line w.party then none else some (.locked line)

/-- What happens-before a read that a boundary serves (11 R309, 13 R329), among the lines it touches. -/
def State.servedClk (s : State) (w : Who) (pa n : Nat) : Clock :=
  (s.servedOf w.rd).foldl (fun k p => if (linesOf pa n).contains p.line then Clock.join k (p.clk.getD []) else k) []

/-- The witness that an access leaves (11 R301). -/
def Acc.wit (a : Acc) (w : Who) : Wit := { party := w.party, epoch := Clock.at w.clk w.party, wr := a.wr, data := a.data }

/-- Whether a walk must wait for a table entry: an MCAS has locked its line, or another request waits there before it (07 R181),
or its home moves (20 R388). -/
def State.walkHeld (s : State) (dom va : Nat) : Bool :=
  (s.foldstat != 0 || !s.lockWaits.isEmpty || s.tasks.any fun t => t.2.mcas.isSome) &&
    (s.walkReads dom va).any fun pa =>
      (s.dirEnt (pa / 128)).st matches .l _ || s.folding pa || s.lockWaits.any fun x => x.1 == pa / 128

/-- The checks of 07 R161 in order. -/
def State.check (s : State) (w : Who) (a : Acc) : Chk :=
  let bad : Nat → Nat → Chk := fun c l => .trap { cause := c, addr := a.va, w := a.wr, level := l }
  if Word.bits a.va 63 55 != 0 then bad cAddress 0
  else if a.va.toNat % a.al != 0 then bad cAlign 0
  else if s.walkHeld w.dom a.va.toNat then .stall
  else
    match s.translate w.dom a.va.toNat with
    | .error f => bad f.cause f.level
    | .ok t =>
      if t.swz == 7 then bad cTable t.level
      else if !(if a.wr then t.w else t.r) then bad cPerm 0
      else
        match physClass t.pa with
        | .control => if a.ctl && w.dom == 0 then .ok t.pa t else bad cPhys 0
        | .pcieHost => if a.pcie then .ok t.pa t else bad cPhys 0
        | .pciePeer => if a.pcie then .ok t.pa t else bad cPhys 0
        | .hbm =>
          if s.lost.contains (homeDie t.pa) then bad cHomeLost 0
          else if s.folding t.pa then .stall
          else if s.inShadow t.pa a.n then bad cPinned 0
          else
            match (linesOf t.pa a.n).findSome? (s.lineCheck w a) with
            | some c => c
            | none =>
              let cs := if t.chk && !a.plain then
                  s.conflictsAt t.pa a.n w.party
                    (Clock.join (Clock.join w.clk (s.servedClk w t.pa a.n)) (s.acqAt t.pa a.n a.acq w.tile)) a.wr a.data
                else []
              if !cs.isEmpty then
                .trap { cause := cConflict, addr := a.va, w := a.wr, pw := cs.any (·.wr) }
              else if !a.wr && (wordsOf t.pa a.n).any s.poison.contains then bad cMemCheck 0
              else if t.chk && !a.plain && s.shadowFull t.pa a.n (a.wit w) then .stall
              else .ok t.pa t
        | .reserved => bad cPhys 0

/-- The port that a PCIe address goes through (22 R418): 0 the host port, 1 the peer and storage port. -/
def pciePort? (pa : Nat) : Option Nat :=
  match physClass pa with
  | .pcieHost => some 0
  | .pciePeer => some 1
  | _ => none

/-- A read that a boundary serves, made with clock `clk`: it happens-before the members' next Compute, and what it happens after
reaches its task (11 R293, R309), which drops what it has read ahead and its copies of code lines (04 R106, 08 R210). What a
Wheel command's read happens after reaches the task at its MDRAIN (09 R222). -/
def State.serveRead (clk : Clock) (s : State) (p : Parked) : State :=
  let k := p.clk.getD []
  let s1 := ((({ s with parked := s.parked.erase p } : State).updCompact p.comp fun c =>
    { c with clk := Clock.join c.clk clk }).closeEpochs clk)
  match p.reader with
  | .task t vs => (s1.acquire t k).updTask t fun x =>
      if vs then { x with vq := x.vq.map fun e => { e with clk := Clock.join e.clk k } } else x
  | .fetch t => s1.dropLines t
  | .copy clus id => s1.updClus clus fun c => { c with
      copies := updWhere c.copies (fun x => x.id == id) fun x => { x with clk := Clock.join x.clk k } }
  | .wheel clus id =>
    let cmds := (s1.wheel clus).queues.flatMap fun q => q.2.filter fun c => c.id == id
    let s2 := cmds.foldl (fun st c => st.updTask c.task fun x => { x with wclk := Clock.join x.wclk k }) s1
    s2.updClus clus fun x => { x with wheel := { x.wheel with
      queues := x.wheel.queues.mapVal fun q => updWhere q (fun c => c.id == id) fun c => { c with clk := Clock.join c.clk k } } }
  | _ => s1

/-- Every read of a reader that its boundary serves has been made (13 R332). -/
def State.servedDone (s : State) (r : Reader) (clk : Clock) : State := (s.servedOf (some r)).foldl (State.serveRead clk) s

/-- An access has been performed: it waits in no line's queue any more. -/
def State.passed (s : State) (w : Who) (pa n : Nat) : State :=
  if s.lockWaits.isEmpty then s
  else { s with lockWaits := s.lockWaits.filter fun y => !((linesOf pa n).contains y.1 && y.2 == .party w.party) }

/-- The accesses of a line and what happens-before them are noted: a compact's members come after them when the line is
converted (13 R324). -/
def State.noteLines (s : State) (w : Who) (pa n : Nat) : State :=
  { s with lineHist := (linesOf pa n).foldl (fun m l => m.set l (Clock.join (m.getD l []) w.clk)) s.lineHist }

/-- What every performed access leaves behind: the cached translation, its place in the line's history and, on a checked page, its
witness. -/
def State.note (s : State) (w : Who) (a : Acc) (pa : Nat) (t : Tr) : State :=
  let s1 := ((s.fillTlb w.dom a.va.toNat t).passed w pa a.n).noteLines w pa a.n
  if t.chk && !a.plain then s1.witness pa a.n (a.wit w) else s1

/-- A read that has passed the checks: the little-endian number, and the state after it. -/
def State.readAt (s : State) (w : Who) (a : Acc) (pa : Nat) (t : Tr) : Nat × State :=
  (s.mem.num pa a.n, (s.note w a pa t).dirReadAt (clusOf w.tile) pa a.n)

/-- Words wholly overwritten lose their poison. -/
def State.unpoison (s : State) (pa n : Nat) : State :=
  if s.poison.isEmpty then s
  else { s with poison := s.poison.filter fun x => !(decide (pa ≤ 8 * x) && decide (8 * x + 8 ≤ pa + n)) }

/-- Bytes stored to HBM by a plain write: the release sequences at them end (11 R292). -/
def State.putBytes (s : State) (pa : Nat) (bs : List Byte) : State :=
  ((s.setRels pa bs.length false []).unpoison pa bs.length).setMem (s.mem.write pa bs)

/-- A write that has passed the checks. -/
def State.writeAt (s : State) (w : Who) (a : Acc) (pa : Nat) (t : Tr) (x : Nat) : State :=
  ((s.note w a pa t).dirOwnAt (clusOf w.tile) pa a.n).putBytes pa (natBytes x a.n)

end Sys2Proof.Machine
end

