-- ==== Sys2Proof/Machine/FrameImage.lean ====
section
/-! DEFINITION. The 8 KiB frame image of a task (01 R27, R28; 08 R190, R207; 10 R272; 20 R392; 21 R406). -/

namespace Sys2Proof.Machine

open Sys2Proof

/-- A task handle (01 R36): GEN and the frame's physical address bits [51:13]. -/
def handleOf (gen frame : Nat) : Word := BitVec.ofNat 64 (gen % 4096 * 2 ^ 52 + frame % 2 ^ 39 * 8192)

def handleFrame (h : Word) : Nat := Word.bits h 51 13
def handleGen (h : Word) : Nat := Word.bits h 63 52

/-- `l` cut or filled with zero bytes to length `n`. -/
def padTo (n : Nat) (l : List Byte) : List Byte := (l ++ List.replicate n 0).take n

/-- 08 R207. -/
def Gen.image (g : Gen) : List Byte :=
  wordBytes g.base ++ g.ext.toList.flatMap (fun x => natBytes x.toNat 4)
    ++ g.str.toList.flatMap (fun x => natBytes x.toNat 4)
    ++ wordBytes (BitVec.ofNat 64
        (g.pos.toNat * 2 ^ 32 + (if g.bound then 128 else 0) + g.vreg.toNat * 16 + (if g.dir then 2 else 0)
          + (if g.valid then 1 else 0)))

def genOfImage (m : Mem) (a : Nat) : Gen :=
  let ctl := m.num (a + 40) 8
  { base := BitVec.ofNat 64 (m.num a 8)
    ext := Vector.ofFn fun i => BitVec.ofNat 32 (m.num (a + 8 + 4 * i.val) 4)
    str := Vector.ofFn fun i => BitVec.ofNat 32 (m.num (a + 24 + 4 * i.val) 4)
    pos := BitVec.ofNat 32 (ctl / 2 ^ 32)
    bound := ctl.testBit 7
    vreg := BitVec.ofNat 3 (ctl / 16)
    dir := ctl.testBit 1
    valid := ctl.testBit 0
    fifo := []
    out := []
    last := none }

/-- 10 R272. -/
def MEntry.image (e : MEntry) : List Byte :=
  wordBytes e.value ++ natBytes e.reg.toNat 1 ++ natBytes (if e.blk then 1 else 0) 1 ++ List.replicate 6 0

/-- 20 R392. -/
def Reasm.image (r : Reasm) : List Byte :=
  natBytes (r.mid % 2 ^ 16 + r.src % 2 ^ 12 * 2 ^ 16 + r.seq % 2 ^ 8 * 2 ^ 28 + r.reg % 16 * 2 ^ 36
    + r.n % 16 * 2 ^ 40) 8 ++ natBytes r.pay.toNat 64 ++ List.replicate 8 0

/-- The V-stream entries that the frame shows: the queue, or in a handler that has queued nothing those that its trap saved
(08 R190; assumption 95). -/
def Task.frameQ (t : Task) : List VEntry := if bit1 t.status 0 && t.vq.isEmpty then t.saved else t.vq

/-- The status line (01 R28, 21 R406); `vp` is the V-stream's program point. -/
def Task.statusLine (t : Task) (frame : Nat) (vp : Word) : List Byte :=
  wordBytes t.pc ++ wordBytes vp ++ wordBytes t.status ++ natBytes t.full.toNat 2 ++ natBytes t.frameQ.length 2
    ++ natBytes t.fpflags.toNat 2 ++ natBytes 0 2 ++ wordBytes t.wait ++ wordBytes (handleOf t.gen frame)
    ++ wordBytes t.saveext ++ natBytes (t.mbox.length + t.dead % 2 ^ 32 * 2 ^ 32) 8 ++ natBytes t.ucnt 8
    ++ t.q.toList.flatMap (fun l => natBytes l.length 1) ++ wordBytes t.faultaddr ++ wordBytes t.faultinfo
    ++ wordBytes t.hcycle ++ wordBytes t.hsent ++ wordBytes t.hrecv ++ wordBytes t.hinfo

/-- The whole image (01 R27). -/
def Task.image (t : Task) (frame : Nat) (vp : Word) : List Byte :=
  t.v.toList.flatMap (fun x => natBytes x.toNat 128)
    ++ t.s.toList.flatMap wordBytes
    ++ t.k.toList.flatMap (fun x => natBytes x.toNat 16)
    ++ t.m.toList.flatMap wordBytes
    ++ t.statusLine frame vp
    ++ (t.q.toList.take 4).flatMap (fun l => padTo 128 (l.flatMap wordBytes))
    ++ (t.q.toList.drop 4).flatMap (fun l => padTo 64 (l.flatMap wordBytes))
    ++ t.gens.toList.flatMap Gen.image
    ++ padTo 768 (t.mbox.flatMap MEntry.image)
    ++ padTo 256 (natBytes t.reasm.length 1 ++ List.replicate 15 0 ++ t.reasm.flatMap Reasm.image)
    ++ padTo 1024 (t.frameQ.flatMap fun e => wordBytes e.pc ++ wordBytes e.scal)

/-- The registers of a task as a frame image holds them; `t` gives what no frame holds. -/
def Task.ofImage (t : Task) (m : Mem) (frame : Nat) : Task :=
  let b := frame * 8192
  let f := m.slice b 8192
  let w : Nat → Word := fun o => BitVec.ofNat 64 (f.num (b + o) 8)
  let st := 38 * 128
  let mcount := f.num (b + st + 56) 8 % 64
  let vcount := f.num (b + st + 26) 2
  let inSaved := bit1 (w (st + 16)) 0 && t.vq.isEmpty
  let shown := t.frameQ
  let queued : List VEntry := (List.range (Nat.min vcount 64)).map fun i =>
    { pc := w (56 * 128 + 16 * i), scal := w (56 * 128 + 16 * i + 8), ins := none,
      clk := ((shown[i]?).map (·.clk)).getD t.clk }
  { t with
    v := Vector.ofFn fun i => BitVec.ofNat 1024 (f.num (b + 128 * i.val) 128)
    s := Vector.ofFn fun i => w (4096 + 8 * i.val)
    k := Vector.ofFn fun i => BitVec.ofNat 128 (f.num (b + 36 * 128 + 16 * i.val) 16)
    m := Vector.ofFn fun i => w (37 * 128 + 8 * i.val)
    pc := w st
    vpc := if bit1 (w (st + 16)) 0 then t.vpc else w (st + 8)
    status := w (st + 16)
    full := BitVec.ofNat 16 (f.num (b + st + 24) 2)
    fpflags := BitVec.ofNat 64 (f.num (b + st + 28) 2 % 512)
    wait := w (st + 32)
    saveext := w (st + 48)
    dead := f.num (b + st + 60) 4
    ucnt := f.num (b + st + 64) 8
    faultaddr := w (st + 80)
    faultinfo := w (st + 88)
    hcycle := w (st + 96)
    hsent := w (st + 104)
    hrecv := w (st + 112)
    hinfo := w (st + 120)
    q := Vector.ofFn fun i =>
      let off := if i.val < 4 then (39 + i.val) * 128 else 43 * 128 + (i.val - 4) * 64
      (List.range (Nat.min (f.num (b + st + 72 + i.val) 1) (if i.val < 4 then 16 else 8))).map fun j => w (off + 8 * j)
    gens := Vector.ofFn fun i => { genOfImage f (b + 45 * 128 + 48 * i.val) with last := t.gens[i].last }
    mbox := (List.range (Nat.min mcount 48)).map fun i =>
      let a := b + 48 * 128 + 16 * i
      { value := BitVec.ofNat 64 (f.num a 8), reg := BitVec.ofNat 4 (f.num (a + 8) 1),
        blk := (f.num (a + 9) 1).testBit 0, clk := ((t.mbox[i]?).map (·.clk)).getD [] }
    reasm := (List.range (Nat.min (f.num (b + 54 * 128) 1) 3)).map fun i =>
      let a := b + 54 * 128 + 16 + 80 * i
      let d := f.num a 8
      { mid := d % 2 ^ 16, src := Nat.bits d 27 16, seq := Nat.bits d 35 28, reg := Nat.bits d 39 36,
        n := Nat.bits d 43 40, pay := BitVec.ofNat 512 (f.num (a + 8) 64) }
    vq := if inSaved then [] else queued
    saved := if inSaved then queued else t.saved }

/-! The frame store of a tile (01 R29, R30). -/

/-- Lines that a frame store holds at most. -/
def storeLines : Nat := 256

/-- A frame line's number: 64 for each frame. -/
def lineOfFrame (t line : Nat) : Nat := t * 64 + line

/-- Memory as the frame store of a task's tile and the memory copy give its frame. -/
def State.frameMem (s : State) (t : Nat) : Mem :=
  let st := (s.tile (s.task t).tile).store
  if st.isEmpty then s.mem
  else (List.range 64).foldl (fun m i => match st.get? (lineOfFrame t i) with
    | some l => m.write (lineOfFrame t i * 128) l
    | none => m) s.mem

/-- Frees the frame store of the lines of frame `t`. -/
def State.dropStore (s : State) (tile t : Nat) : State :=
  let x := s.tile tile
  if x.store.isEmpty then s else s.setTile tile { x with store := x.store.filter fun p => p.1 / 64 != t }

/-- Writes a task's whole frame image back to memory, and drops its lines from the frame store (02 R66, 21 R402). -/
def State.writeFrame (s : State) (t : Nat) (vp : Word) : State :=
  let x := s.task t
  (s.dropStore x.tile t).setMem (s.mem.write (t * 8192) (x.image t vp))

/-- Changes a stopped task's frame: in the frame store where a line is still there, and in memory. -/
def State.putFrame (s : State) (t : Nat) (vp : Word) : State :=
  let x := s.task t
  let tl := s.tile x.tile
  ((chunks 128 (x.image t vp) 64).zipIdx).foldl (fun st p =>
    let n := lineOfFrame t p.2
    if tl.store.has n then
      let y := st.tile x.tile
      st.setTile x.tile { y with store := y.store.set n p.1 }
    else st.setMem (st.mem.write (n * 128) p.1)) s

/-- The lines of a tile's frame store in use: those of its running tasks, and the evictable ones. -/
def State.storeUsed (s : State) (tile : Nat) : Nat :=
  (s.tile tile).store.length + (s.tasks.map fun p =>
    if p.2.tile == tile then ((List.range 64).filter p.2.resident.getLsbD).length else 0).foldl (· + ·) 0

/-- An evictable line is written back to memory; which one is free (01 R29). -/
def State.evictLine (s : State) (tile : Nat) : State :=
  let x := s.tile tile
  match x.store with
  | [] => s
  | p :: _ =>
    let q := if x.store.length = 1 then p else (x.store[Config.evictChoice s.fresh % x.store.length]?).getD p
    let s1 := if x.store.length = 1 then s else s.free.2
    (s1.setTile tile { x with store := x.store.del q.1 }).setMem (s.mem.write (q.1 * 128) q.2)

/-- Room for one more line: an evictable line makes it (01 R29). -/
def State.makeRoom (s : State) (tile : Nat) : State :=
  if s.storeUsed tile < storeLines then s else s.evictLine tile

/-- FRAME_LINE_FETCH (01 R29): a line that is not resident is fetched for a running task. -/
def State.frameLine (s : State) (t line : Nat) : State :=
  let x := s.task t
  if (x.run == .run || x.run == .exiting) && decide (line < 64) && !x.resident.getLsbD line then
    (s.makeRoom x.tile).updTask t fun y => { y with resident := y.resident ||| BitVec.ofNat 64 (2 ^ line) }
  else s

/-- A stopped task's lines are marked evictable: those that were resident or differ from their memory copy. The status
line is written to memory (21 R407 step 5). -/
def State.leaveFrame (s : State) (t : Nat) (vp : Word) : State :=
  let x := s.task t
  let s1 := s.updTask t fun y => { y with resident := 0 }
  ((chunks 128 (x.image t vp) 64).zipIdx).foldl (fun st p =>
    let a := lineOfFrame t p.2 * 128
    if p.2 = 38 then st.setMem (st.mem.write a p.1)
    else if !x.resident.getLsbD p.2 && st.mem.read a 128 == p.1 then st
    else
      let u := st.makeRoom x.tile
      let y := u.tile x.tile
      u.setTile x.tile { y with store := y.store.set (lineOfFrame t p.2) p.1 }) s1

/-- A resumed task's lines that are still in the frame store are resident again. -/
def State.takeStore (s : State) (t : Nat) : State :=
  let x := s.task t
  let st := (s.tile x.tile).store
  if st.isEmpty then s
  else
    (s.dropStore x.tile t).updTask t fun y =>
      { y with resident := BitVec.ofNat 64 ((List.range 64).foldl (fun n i =>
          if st.has (lineOfFrame t i) then n ||| 2 ^ i else n) 0) }

/-- WBL names a frame line that a frame store holds (01 R30): it is written back. A stopped task's line leaves the store; a
running task's line stays resident. -/
def State.writeBackLine (s : State) (line : Nat) : State :=
  let t := line / 64
  match s.task? t with
  | none => s
  | some x =>
    let tl := s.tile x.tile
    match tl.store.get? line with
    | some l => (s.setTile x.tile { tl with store := tl.store.del line }).setMem (s.mem.write (line * 128) (l.take 128))
    | none =>
      if x.resident.getLsbD (line % 64) then
        s.setMem (s.mem.write (line * 128) (((x.image t x.vpc).drop (128 * (line % 64))).take 128))
      else s

/-- The V-stream's program point in a frame. -/
def State.frameVpc (s : State) (t : Nat) : Word := BitVec.ofNat 64 ((s.frameMem t).num (t * 8192 + 38 * 128 + 8) 8)

/-- Whether a task's registers live in its record (it holds a context) and not only in its frame's memory. -/
def Task.live (t : Task) : Bool := t.run == .run || t.run == .exiting

/-- Changes a task's registers wherever they are: in its record while it runs, in its frame's memory while it is
stopped (02 R73), the lines of the frame store among it. -/
def State.editTask (s : State) (t : Nat) (f : Task → Task) : State :=
  match s.task? t with
  | none => s
  | some x =>
    if x.live then s.setTask t (f x)
    else (s.setTask t (f (x.ofImage (s.frameMem t) t))).putFrame t (s.frameVpc t)

/-- A task's registers as they stand, read from memory while it is stopped. -/
def State.viewTask (s : State) (t : Nat) : Task :=
  let x := s.task t
  if x.live then x else x.ofImage (s.frameMem t) t

end Sys2Proof.Machine
end

