-- ==== Sys2Proof/Machine/Deliver.lean ====
section
/-! DEFINITION. The receiving side of messages (10 R272), and the wake-up of waiting tasks (02 R64, R65). -/

namespace Sys2Proof.Machine

open Sys2Proof

/-! Restartable waits (02 R64, 10 R269). A wait that has ended keeps its result in `wake` until the instruction is
evaluated again and takes it. -/

def waitKind (w : Word) : Nat := Word.bits w 7 0

def Task.waits (t : Task) (kind : Nat) : Bool := waitKind t.wait == kind && t.wake.isNone

/-- Ends a wait with a result. -/
def Task.wakeWith (t : Task) (r : Nat) : Task := { t with wake := some r, deadline := none }

/-- A wait that ends without a result: the instruction will be evaluated afresh (10 R247). -/
def Task.dropWait (t : Task) : Task := { t with wait := 0, wake := none, deadline := none }

/-- Wakes task `t` if it waits with `kind`, running or stopped (02 R65). -/
def State.wake (s : State) (t kind r : Nat) : State :=
  match s.task? t with
  | none => s
  | some _ => if (s.viewTask t).waits kind then s.editTask t (·.wakeWith r) else s

/-! Message registers (01 R21, 10 R272). -/

def Task.isFull (t : Task) (k : Nat) : Bool := t.full.getLsbD k

def Task.setM (t : Task) (k : Nat) (v : Word) (full : Bool) (c : Clock) : Task :=
  { t with
    m := t.m.setIfInBounds k v
    full := if full then t.full ||| BitVec.ofNat 16 (2 ^ k) else t.full &&& ~~~(BitVec.ofNat 16 (2 ^ k))
    mclk := t.mclk.setIfInBounds k c }

/-- Whether the mailbox holds an entry for register `k`. -/
def Task.boxed (t : Task) (k : Nat) : Bool := t.mbox.any fun e => e.reg.toNat == k

/-- The refill of 10 R272, whenever the full bit of `k` has become 0. -/
def Task.refill (t : Task) (k : Nat) : Task :=
  match t.mbox.find? fun e => e.reg.toNat == k with
  | none => t
  | some e => { t.setM k e.value true e.clk with mbox := t.mbox.erase e }

/-- An ordinary write of a message register clears its full bit, and the refill follows (01 R21, 10 R272). -/
def Task.writeM (t : Task) (k : Nat) (v : Word) : Task := (t.setM k v false []).refill k

/-- One word delivered (10 R272). -/
def Task.deliver (t : Task) (k : Nat) (v : Word) (blk : Bool) (c : Clock) : Task :=
  if !t.isFull k && !t.boxed k then
    let x := t.setM k v true c
    if x.waits 2 && Word.bits x.wait 11 8 == k then x.wakeWith 0 else x
  else { t with mbox := t.mbox ++ [{ value := v, reg := BitVec.ofNat 4 k, blk := blk, clk := c }] }

/-- The words for registers `k`, `k`+1, … that must go to the mailbox (10 R272). -/
def Task.mustBox (t : Task) (k n : Nat) : Nat :=
  ((List.range n).filter fun i => t.isFull (k + i) || t.boxed (k + i)).length

def Task.deliverAll (t : Task) (k : Nat) (ws : List Word) (blk : Bool) (c : Clock) : Task :=
  (ws.zipIdx).foldl (fun t p => t.deliver (k + p.2) p.1 blk c) t

/-- Whether a handle names a task that can be sent to (10 R272, 02 R66): its generation is current, a task holds the
frame and has not executed EXIT, and a sender outside domain 0 is of its domain. `dom` is absent for the hardware's own
blocks. -/
def State.reachable (s : State) (h : Word) (dom : Option Nat) : Bool :=
  match s.task? (handleFrame h) with
  | none => false
  | some t => t.gen % 4096 == handleGen h && !t.closed
      && (match dom with
          | none => true
          | some d => d == 0 || t.dom == d)

/-- The place of an arrival in its ck: after every local access of a message register (01 R21). -/
def arrivalRank : Nat := 8194

/-- A message word or block reaches the receiving side: status 0 delivered, 1 refused, 2 dead letter (10 R271, R272). Whatever
sends it, no tile has a turn after it in its ck (01 R21). -/
def State.receive (s : State) (h : Word) (dom : Option Nat) (k : Nat) (ws : List Word) (blk : Bool) (c : Clock) :
    Nat × State :=
  if !s.reachable h dom then (2, s)
  else
    let f := handleFrame h
    let t := s.viewTask f
    if 48 < t.mbox.length + t.mustBox k ws.length then (1, s)
    else
      let s1 := s.editTask f fun t => t.deliverAll k ws blk c
      let tl := s1.tile t.tile
      (0, ({ s1 with ckRank := Nat.max s1.ckRank arrivalRank } : State).setTile t.tile { tl with msgin := tl.msgin + 1 })

end Sys2Proof.Machine
end

