-- ==== Sys2Proof/Machine/Flits.lean ====
section
/-! DEFINITION. The fabric inside a device: endpoints, injection, routers and reassembly (20 R380-R384; 14 R348; 01 R15,
R16). Messages, remote arrivals and signals, and the data of copies travel as flits; other traffic of the fabric, whose
amount depends on the caches, is put in by a turn of its own (assumption 1). -/

namespace Sys2Proof.Machine

open Sys2Proof

/-! Endpoints (20 R380). -/

/-- The endpoint of a cluster. -/
def clusEndpoint (clus : Nat) : Nat := dieOfClus clus * 256 + clus % 64 / 4 * 8 + clus % 4

/-- The cluster of an endpoint. -/
def endpointClus (e : Nat) : Option Nat :=
  if e / 256 < 8 ∧ e / 8 % 32 < 16 ∧ e % 8 < 4 then some (e / 256 * 64 + e / 8 % 32 * 4 + e % 8) else none

/-- The endpoint of a kiln slice: slice routers follow the cluster routers (01 R15). -/
def sliceEndpoint (die slice : Nat) : Nat :=
  die * 256 + (16 + (if slice < 8 then 0 else 4) + slice % 8 / 2) * 8 + slice % 2

/-- The endpoint of HBM4 controller `c`, 0 or 1, of a die: the next local port of the first slice router of a column (assumption
10). -/
def hbmEndpoint (die c : Nat) : Nat := die * 256 + (16 + 4 * c) * 8 + 2

/-- The endpoint of the bridge by which router `r` of a die reaches another (assumption 10): local port 4 to the die before it in
its row, 5 to the one after it, 6 across, 7 to an I/O die. -/
def bridgeEndpoint (die r to' : Nat) : Nat :=
  die * 256 + r * 8 + (if 8 ≤ to' then 7 else if to' + 1 = die then 4 else if to' = die + 1 then 5 else 6)

/-- The endpoint of the I/O die port through which an Ethernet port is reached (assumption 10). -/
def ioEndpoint (port : Nat) : Nat := (8 + port / 4) * 256 + port % 4

/-- The endpoint of the home of a physical address. -/
def State.homeEndpoint (s : State) (pa : Nat) : Nat := sliceEndpoint (homeDie pa) (s.homeSlice pa)

/-! Flits (20 R380). -/

/-- Flits of a message of `n` words. -/
def flitsOf (n : Nat) : Nat := divUp (8 * n) 64

/-- The header of a flit. -/
def Flit.header (f : Flit) : BitVec 64 :=
  BitVec.ofNat 64 (f.dest % 4096 * 2 ^ 52 + f.src % 4096 * 2 ^ 40 + f.age % 256 * 2 ^ 32 + f.mid % 65536 * 2 ^ 16
    + f.seq % 256 * 2 ^ 8 + (if f.isLast then 128 else 0) + f.kind % 8 * 16)

/-- The payloads of a message: 64 bytes to a flit. -/
def payloads (words : List Word) : List (BitVec 512) :=
  (List.range (flitsOf words.length)).map fun i =>
    BitVec.ofNat 512 (bytesNum (((words.drop (8 * i)).take 8).flatMap wordBytes))

/-- The message ids that a source has in flight. -/
def State.midsOf (s : State) (src : Nat) : List Nat :=
  ((s.injq ++ s.flits).filter fun f => f.src == src).map (·.mid) ++ (s.slots.filter fun x => x.src == src).map (·.mid)
    ++ (s.sends.filter fun m => m.src == src && m.status.isNone).map (·.mid)

/-- A 16-bit message id that the source has not in flight. -/
def State.freeMid (s : State) (src n : Nat) : Nat :=
  let busy := s.midsOf src
  (((List.range (busy.length + 1)).map fun i => (n + i) % 65536).find? fun m => !busy.contains m).getD (n % 65536)

/-- A message waits to be injected at its source endpoint. `q` is its source in a cluster: a pug queue, 8 for the compact
channel, 9 for everything else (14 R348). -/
def State.inject (s : State) (src dest kind mid ref q : Nat) (pays : List (BitVec 512)) : State :=
  { s with injq := s.injq ++ pays.zipIdx.map fun p =>
      { dest := dest, src := src, age := 0, mid := mid, seq := p.2, isLast := p.2 + 1 == pays.length, kind := kind, pay := p.1
        ref := ref, q := q, router := src / 8, here := false, back := false, born := 0, came := 0, excused := false } }

/-! Routers (01 R15, R16; 20 R381). -/

/-- Row and column of router `r` of a die's 6 × 4 grid: 16 cluster routers, then 8 slice routers (01 R15). -/
def routerAt (r : Nat) : Nat × Nat :=
  if r < 16 then (r / 4, [0, 2, 3, 5].getD (r % 4) 0) else ((r - 16) % 4, if r < 20 then 1 else 4)

def gapOf (a b : Nat) : Nat := (a - b) + (b - a)

/-- Steps between two routers of a grid. -/
def routerDist (a b : Nat) : Nat :=
  gapOf (routerAt a).1 (routerAt b).1 + gapOf (routerAt a).2 (routerAt b).2

/-- The neighbours of a router on its die; a device-wide router number is die × 32 + router. -/
def neighbours (r : Nat) : List Nat :=
  ((List.range 24).filter fun x => routerDist x (r % 32) == 1).map fun x => r / 32 * 32 + x

/-- The next die on the way from one to another (01 R16): along the row, then across. I/O dies 8 and 9 adjoin dies 0 and
4, and 3 and 7. -/
def nextDie (a b : Nat) : Nat :=
  let goal := if b = 8 then a / 4 * 4 else if b = 9 then a / 4 * 4 + 3 else b
  if a = 8 then (if b < 8 then b / 4 * 4 else 0)
  else if a = 9 then (if b < 8 then b / 4 * 4 + 3 else 3)
  else if a % 4 < goal % 4 then a + 1 else if goal % 4 < a % 4 then a - 1
  else if 8 ≤ b then b
  else if a < 4 then a + 4 else a - 4

/-- Entry `n` of a list of ports, taken round. -/
def pickPort (l : List Nat) (n : Nat) : Option Nat := l[n % Nat.max 1 l.length]?

/-- Routers `a` and `b` are joined by a link or bridge that is down (20 R383). -/
def State.linkDown (s : State) (a b : Nat) : Bool := s.downLinks.any fun p => p == (a, b) || p == (b, a)

/-- The link or bridge between two routers goes down or up. -/
def State.setLink (s : State) (a b : Nat) (up : Bool) : State :=
  if up then { s with downLinks := s.downLinks.filter fun p => p != (a, b) && p != (b, a) }
  else if s.linkDown a b then s
  else ({ s with downLinks := s.downLinks ++ [(a, b)] } : State).excuse

/-- The port by which a flit leaves router `r` when the ports of `used` are taken or down, and whether that deflects it: one that
brings it closer if there is one, otherwise any of its die's. A flit for another die may take a bridge; one with `must` set
may not go to its endpoint. `none`: no port is free. -/
def portFor (r dest n : Nat) (must : Bool) (used : List Nat) : Option (Nat × Bool) :=
  let goal := dest / 8
  let ports := (neighbours r).filter fun x => !used.contains x
  let closer := ports.filter fun x => routerDist (x % 32) (goal % 32) < routerDist (r % 32) (goal % 32)
  let over' := nextDie (r / 32) (goal / 32) * 32 + r % 32
  let any' := pickPort ports (Config.routeTo r n)
  if must then any'.map (·, true)
  else if r / 32 = goal / 32 then
    match pickPort closer (Config.routeTo r n) with
    | some x => some (x, false)
    | none => any'.map (·, true)
  else if !Config.noBridge r n && !used.contains over' then some (over', false)
  else any'.map (·, Config.deflected r n)

/-- A deflection is counted for the cluster that injected the flit. -/
def State.countDeflection (s : State) (f : Flit) : State :=
  match endpointClus f.src with
  | none => s
  | some k => s.updClus k fun c => { c with winDefl := c.winDefl + 1, deflcnt := (c.deflcnt + 1) % 2 ^ 64 }

/-- A flit's age in units of 32 fk (20 R380). -/
def State.ageOf (s : State) (f : Flit) : Nat := Nat.min 255 ((s.fk - f.born) / 32)

/-- A flit leaves its router by a free port: the flit, the ports taken, the state. One that finds none stays for an fk
(assumption 10). -/
def State.moveFlit (s : State) (f : Flit) (must : Bool) (used : List Nat) : Option (Flit × List Nat × State) :=
  let (n, s1) := s.free
  let down := (s.downLinks.filter fun p => p.1 == f.router || p.2 == f.router).map fun p => if p.1 = f.router then p.2 else p.1
  (portFor f.router f.dest n must (used ++ down)).map fun p =>
    ({ f with router := p.1, came := s.fk, back := false, age := s.ageOf f }, p.1 :: used, if p.2 then s1.countDeflection f else s1)

/-- Service order: oldest first, ties to the lower source. -/
def Flit.before (f g : Flit) : Bool := decide (g.age < f.age) || (f.age == g.age && decide (f.src ≤ g.src))

/-- Flits that stand at an endpoint. -/
def standing (l : List Flit) (dest : Nat) : Nat := (l.filter fun g => g.here && g.dest == dest).length

/-- One flit that arrived in the previous fk: it goes to its endpoint, which takes two, or out of a port. -/
def State.serveFlit (p : List Flit × List Nat × State) (f : Flit) : List Flit × List Nat × State :=
  let home := f.dest / 8 == f.router
  let s := p.2.2
  if home && !f.back && decide (standing p.1 f.dest < 2) then (p.1 ++ [{ f with here := true, age := s.ageOf f }], p.2)
  else
    match s.moveFlit f home p.2.1 with
    | some (g, used, st) => (p.1 ++ [g], used, st)
    | none => (p.1 ++ [{ f with age := s.ageOf f }], p.2.1, s.free.2)

/-! Injection (20 R381, 14 R348). -/

/-- Whether THROTTLE lets a cluster inject in an fk: at most 8 − L of every 8 (14 R348). `injAt` holds the fk of its latest
injections. -/
def Clus.mayInject (c : Clus) (fk : Nat) : Bool :=
  decide ((c.injAt.filter fun k => decide (fk < k + 8)).length < 8 - c.throttle)

/-- The flit that an endpoint injects next. In a cluster the pug engine gets at least every second slot, and within it the
queues and the compact channel take turns (14 R348). -/
def State.nextFlit (s : State) (e : Nat) : Option Flit :=
  let l := s.injq.filter fun f => f.src == e
  match endpointClus e with
  | none => l.head?
  | some k =>
    let c := s.clus k
    if !c.mayInject s.fk then none
    else
      let other := l.find? fun f => decide (8 < f.q)
      let pug := ((List.range 9).map fun i => (c.injLast + 1 + i) % 9).findSome? fun q => l.find? fun f => f.q == q
      if c.injPug then other.or pug else pug.or other

/-- The cluster injects a flit in fk `fk`. -/
def Clus.slotUsed (c : Clus) (fk : Nat) (f : Flit) : Clus :=
  { c with injAt := (fk :: c.injAt).take 8, injPug := decide (f.q ≤ 8), injLast := if f.q ≤ 8 then f.q else c.injLast
           winFlits := c.winFlits + 1 }

/-- An endpoint of a router injects its next flit into an output slot that no arriving flit has taken. -/
def State.injectAt (p : List Flit × List Nat × State) (e : Nat) : List Flit × List Nat × State :=
  let s := p.2.2
  match s.nextFlit e with
  | none => p
  | some f0 =>
    let f := { f0 with born := s.fk, came := s.fk, excused := s.unbound }
    let home := f.dest / 8 == f.router
    let gone : State → State := fun st =>
      let s1 : State := { st with injq := st.injq.erase f0 }
      match endpointClus e with
      | none => s1
      | some k => s1.updClus k (·.slotUsed s.fk f)
    if home && decide (standing p.1 f.dest < 2) then (p.1 ++ [{ f with here := true }], p.2.1, gone s)
    else
      match s.moveFlit f home p.2.1 with
      | some (g, u, st) => (p.1 ++ [g], u, gone st)
      | none => p

/-- A router has something to do in this fk: a flit that arrived in an earlier one, or one to inject. -/
def State.routerBusy (s : State) (r : Nat) : Bool :=
  s.flits.any (fun f => f.router == r && !f.here && decide (f.came < s.fk)) || s.injq.any fun f => f.router == r

/-- The next fk begins once every router that has something to do in this one has done it. -/
def State.nextFk (s : State) : State :=
  if (s.flits ++ s.injq).all fun f => s.cycled.contains f.router || !s.routerBusy f.router then
    { s with fk := s.fk + 1, cycled := [] }
  else s

/-- ROUTER_CYCLE (20 R381): one fk of a router. The flits that arrived in the previous fk go out, oldest first, then its
endpoints inject. A router cycles once in an fk. -/
def State.routerCycle (s0 : State) (r : Nat) : State :=
  let s := if s0.cycled.contains r then s0.nextFk else s0
  if s.cycled.contains r then s
  else
    let out : Flit → Bool := fun f => f.router == r && !f.here && decide (f.came < s.fk)
    let stay := s.flits.filter fun f => !out f
    let old := ((s.flits.filter out).map fun f => { f with age := s.ageOf f }).mergeSort Flit.before
    let p := ((List.range 8).map (8 * r + ·)).foldl State.injectAt
      (old.foldl State.serveFlit (stay.filter fun f => f.router == r, [], s))
    { p.2.2 with flits := (stay.filter fun f => f.router != r) ++ p.1, cycled := insertNat s.cycled r }

/-! Reassembly (20 R382). -/

/-- Slots of an endpoint, besides the escape slot. -/
def slotCount : Nat := 64

/-- A flit's message has more than one flit. -/
def Flit.multi (f : Flit) : Bool := !(f.isLast && f.seq == 0)

/-- Whether a slot holds the message of a flit. -/
def Flit.inSlot (f : Flit) (x : Slot) : Bool := x.dest == f.dest && x.src == f.src && x.mid == f.mid

/-- Whether the message of a flit has been moved into its receiver's frame (20 R392). -/
def State.inFrame (s : State) (f : Flit) : Bool :=
  match s.sends.find? fun m => m.id == f.ref with
  | none => false
  | some m => (s.viewTask (handleFrame m.handle)).reasm.any fun x => x.mid == f.mid && x.src == f.src

/-- Whether the message of a flit has its place already. -/
def State.placed (s : State) (f : Flit) : Bool := !f.multi || s.slots.any f.inSlot || s.inFrame f

/-- The slot that a first flit takes: an ordinary one, or for the oldest such flit the escape slot. -/
def State.slotFor (s : State) (f : Flit) : Option Slot :=
  let mine := s.slots.filter fun x => x.dest == f.dest
  let firsts := s.flits.filter fun g => g.here && g.dest == f.dest && !s.placed g
  let x : Slot := { dest := f.dest, src := f.src, mid := f.mid, ref := f.ref, n := 0, got := [], escape := false }
  if (mine.filter fun y => !y.escape).length < slotCount then some x
  else if !mine.any (·.escape) && firsts.all fun g => f.before g || g == f then some { x with escape := true }
  else none

/-- A flit in its slot. -/
def Slot.add (x : Slot) (f : Flit) : Slot :=
  { x with got := insertNat x.got f.seq, n := if f.isLast then f.seq + 1 else x.n }

/-- The whole message has arrived. -/
def Slot.whole (x : Slot) : Bool := x.n != 0 && x.got.length == x.n

/-- A flit that has missed the bound of 20 R383, which holds where no link or bridge was down, nothing folded and no die was in
home-loss recovery during its flight. The links are those between routers (assumption 10). -/
def State.countLate (s : State) (f : Flit) : State :=
  if 8192 < s.fk - f.born && !f.excused then
    ({ s with delBound := (s.delBound + 1) % 2 ^ 32 } : State).tell (.lateDelivery f.src)
  else s

/-- Whether a message waits for a delivery of its own, which frees its slot. -/
def State.isSend (s : State) (ref : Nat) : Bool := s.sends.any fun m => m.id == ref

/-- A flit is accepted. -/
def State.takeFlit (s : State) (f : Flit) : State :=
  let next := s.rarrs.foldl (fun n r => Nat.max n (r.at'.getD 0)) 0 + 1
  let l := updWhere s.slots f.inSlot (·.add f)
  { s.countLate f with
    slots := l.filter fun x => !(x.whole && !s.isSend x.ref)
    sends := updWhere s.sends (fun m => m.id == f.ref) fun m => { m with got := insertNat m.got f.seq }
    rarrs := updWhere s.rarrs (fun m => m.mid == f.ref) fun m => { m with at' := some next } }

/-- FLIT_ARRIVAL (20 R382): the endpoint accepts a flit that stands at it, or turns it away to be deflected. -/
def State.flitArrival (s : State) (idx : Nat) : State :=
  match s.flits[idx]? with
  | none => s
  | some f =>
    if !f.here then s
    else
      let s1 : State := { s with flits := s.flits.eraseIdx idx }
      if s.placed f then s1.takeFlit f
      else
        match s.slotFor f with
        | some x => ({ s1 with slots := s1.slots ++ [x] } : State).takeFlit f
        | none => { s with flits := s.flits.set idx { f with here := false, back := true } }

/-- The number of a window of 1,024 fk, which are 512 ck (20 R384). -/
def State.window (s : State) : Nat := s.cycle.toNat / 512

/-- THROTTLE_WINDOW (20 R384), once at the end of each window. -/
def State.throttleWindow (s : State) (clus : Nat) : State :=
  let c := s.clus clus
  let l := c.throttle
  let t := fun k => Word.bits s.fabthr (8 * k - 1) (8 * k - 8)
  let level :=
    if l < 7 && decide (t (l + 1) * c.winFlits ≤ 256 * c.winDefl) && (c.winFlits != 0 || t (l + 1) == 0) then l + 1
    else if 0 < l && decide ((if c.winFlits = 0 then 0 else 512 * c.winDefl) < t l * Nat.max 1 c.winFlits) then l - 1
    else l
  if c.win = s.window then s
  else s.setClus clus { c with throttle := level, winDefl := 0, winFlits := 0, win := s.window }

/-- The partly received message blocks of a task, up to three, move from their slots into its frame's reassembly area
(20 R392). -/
def State.moveBlocks (s : State) (t : Nat) : List Reasm × State :=
  let mine := (s.slots.filterMap fun x => match s.sends.find? fun m => m.id == x.ref with
    | some m => if handleFrame m.handle == t && m.status.isNone && !x.whole then some (x, m) else none
    | none => none).take (3 - (s.task t).reasm.length)
  (mine.map fun p =>
    { mid := p.1.mid, src := p.1.src, seq := p.1.got.headD 0, reg := p.2.reg, n := p.2.words.length - 1
      pay := (payloads p.2.words).getD (p.1.got.headD 0) 0 },
   { s with slots := s.slots.filter fun x => !mine.any fun p => p.1 == x })

/-- A message that has been delivered or refused leaves its slot, or its entry in a frame (20 R382, R392). -/
def State.freeSlot (s : State) (m : Send) : State :=
  let t := handleFrame m.handle
  let s1 : State := { s with slots := s.slots.filter fun x => x.ref != m.id }
  let here := fun (r : Reasm) => r.mid == m.mid && r.src == m.src
  if (s.viewTask t).reasm.any here then s1.editTask t fun y => { y with reasm := y.reasm.filter fun r => !here r } else s1

end Sys2Proof.Machine
end

