-- ==== Sys2Proof/Machine/Flags.lean ====
section
/-! DEFINITION. The floating-point flags of FPFLAGS (05 R121-R123). -/

namespace Sys2Proof.Machine

open Sys2Proof

/-- A set of flags, bit i of FPFLAGS at bit i (05 R122). -/
abbrev Flags := BitVec 9

def fNV : Flags := 1
def fDZ : Flags := 2
def fOF : Flags := 4
def fUF : Flags := 8
def fNX : Flags := 16
def fDF : Flags := 32
def fSAT : Flags := 64
def fQ8N : Flags := 128
def fOUT : Flags := 256

/-- A flag where a condition holds. -/
def flagIf (b : Bool) (f : Flags) : Flags := if b then f else 0

/-- Sets flags in an FPFLAGS value; set bits stay set (05 R121). -/
def orFlags (fpflags : Word) (f : Flags) : Word := fpflags ||| f.setWidth 64

/-- The flags that a Wheel command reports (05 R123). -/
def wheelFlags (f : Flags) : Flags := f &&& (fNV ||| fOF ||| fOUT)

end Sys2Proof.Machine
end

