-- ==== Sys2Proof/Machine/Numbers.lean ====
section
/-! DEFINITION. Number formats, exact values and rounding (05 R107-R126). -/

namespace Sys2Proof.Machine

open Sys2Proof

/-- An exact value (05, opening; R108): a NaN (signalling or not), an infinity or a zero of a sign, or a nonzero
rational. -/
inductive XV where
  | nan (sig : Bool)
  | inf (neg : Bool)
  | zero (neg : Bool)
  | fin (q : Rat)
  deriving DecidableEq

/-- 2^e. -/
def pow2 (e : Int) : Rat := if 0 ≤ e then ((2 ^ e.toNat : Nat) : Rat) else 1 / ((2 ^ (-e).toNat : Nat) : Rat)

/-- ⌊log2 q⌋ of a positive rational. -/
def floorLog2 (q : Rat) : Int :=
  let n := q.num.toNat
  let l : Int := (Nat.log2 n : Int) - (Nat.log2 q.den : Int)
  if pow2 l ≤ q then (if pow2 (l + 1) ≤ q then l + 1 else l) else l - 1

def absQ (q : Rat) : Rat := if q < 0 then -q else q

/-! The floating-point formats (05 R107). -/

/-- Exponent bits, fraction bits and bias of format codes 0 to 7. -/
def fmtE (c : Nat) : Nat := [8, 5, 8, 4, 5, 3, 2, 2].getD c 0
def fmtM (c : Nat) : Nat := [23, 10, 7, 3, 2, 2, 3, 1].getD c 0
def fmtB (c : Nat) : Nat := [127, 15, 127, 7, 15, 3, 1, 1].getD c 0
def isFloatFmt (c : Nat) : Bool := c ≤ 7
def fmtSigned (c : Nat) : Bool := decide (16 ≤ c) && decide (c ≤ 19)
/-- FP32, FP16, BF16 and E5M2 have infinities (05 R108). -/
def fmtHasInf (c : Nat) : Bool := c == 0 || c == 1 || c == 2 || c == 4

/-- The largest finite magnitude (05 R107, R108). -/
def fmtMax (c : Nat) : Rat :=
  match c with
  | 3 => 448
  | 5 => 28
  | 6 => 15 / 2
  | 7 => 6
  | 9 => 2
  | _ => (2 - pow2 (-(fmtM c : Int))) * pow2 (2 ^ fmtE c - 2 - fmtB c)

/-- The canonical NaN (05 R110). -/
def canonNaN (c : Nat) : Nat :=
  match c with
  | 0 => 0x7FC00000 | 1 => 0x7E00 | 2 => 0x7FC0 | 3 => 0x7F | 4 => 0x7E | 8 => 0xFF | _ => 0

/-- A term of DS8 (05 R113). -/
def ds8Term (s e : Nat) : Rat := if e = 7 then 0 else (if s = 1 then -1 else 1) * pow2 (-(e : Int))

/-- The value of a DS8 code (05 R113). -/
def ds8Val (x : Nat) : Rat :=
  ds8Term (x / 128 % 2) (x / 16 % 8) + ds8Term (x / 8 % 2) (x % 8)

/-- A rational as an exact value; zero is +0. -/
def XV.ofRat (q : Rat) : XV := if q = 0 then .zero false else .fin q

/-- The decoded value of a code (05 R107-R109, R113, R116). -/
def dec (c x : Nat) : XV :=
  if isFloatFmt c then
    let m := x % 2 ^ fmtM c
    let e := x / 2 ^ fmtM c % 2 ^ fmtE c
    let neg := x / 2 ^ (fmtM c + fmtE c) % 2 == 1
    let sg : Rat := if neg then -1 else 1
    if fmtHasInf c && e == 2 ^ fmtE c - 1 then
      if m = 0 then .inf neg else .nan (c != 4 && m < 2 ^ (fmtM c - 1))
    else if c = 3 ∧ x % 128 = 127 then .nan false
    else if e = 0 then
      if m = 0 ∨ c = 2 then .zero neg else .fin (sg * m * pow2 (1 - fmtB c - fmtM c))
    else .fin (sg * (2 ^ fmtM c + m) * pow2 ((e : Int) - fmtB c - fmtM c))
  else if c = 9 then XV.ofRat (ds8Val x)
  else if fmtSigned c then XV.ofRat (sint (fmtWidth c) x)
  else XV.ofRat ((x % 2 ^ fmtWidth c : Nat) : Rat)

/-- Reading a BF16 subnormal sets DF (05 R116). -/
def decFlags (c x : Nat) : Flags := flagIf (c == 2 && x / 128 % 256 == 0 && x % 128 != 0) fDF

/-- A signalling NaN that an operation computes on sets NV (05 R110). -/
def XV.sigFlags : XV → Flags
  | .nan true => fNV
  | _ => 0

def XV.isNaN : XV → Bool
  | .nan _ => true
  | _ => false

def XV.neg? : XV → Bool
  | .nan _ => false
  | .inf n => n
  | .zero n => n
  | .fin q => decide (q < 0)

/-! Rounding (05 R117, R118). -/

/-- The 12 bits of `i` reversed. -/
def bitRev12 (i : Nat) : Nat := (List.range 12).foldl (fun a j => a + i / 2 ^ j % 2 * 2 ^ (11 - j)) 0

/-- `pick`: which of the neighbours k and k + 1 (in units of the grid step) a value takes; `fr` is its position between
them and `neg` its sign. Modes: 0 RNE, 1 RTZ, 2 RUP, 3 RDN, 4 DITHER. -/
def pickUp (mode i : Nat) (k : Int) (fr : Rat) (neg : Bool) : Bool :=
  match mode with
  | 0 => if fr = 1 / 2 then k % 2 != 0 else decide (1 / 2 < fr)
  | 1 => neg
  | 2 => true
  | 3 => false
  | _ => decide (4096 ≤ (4096 * fr).floor.toNat + bitRev12 (i % 4096))

/-- The step of the grid at a nonzero value (05 R117): binades extended upwards, and downwards for BF16. -/
def gridStep (c : Nat) (q : Rat) : Rat :=
  if isFloatFmt c then
    let e := floorLog2 (absQ q)
    pow2 ((if c = 2 then e else max e (1 - (fmtB c : Int))) - fmtM c)
  else 1

/-- The code of a grid value within range (05 R107). -/
def encF (c : Nat) (q : Rat) : Nat :=
  let s := if q < 0 then 2 ^ (fmtM c + fmtE c) else 0
  let a := absQ q
  let e := floorLog2 a
  if e < 1 - (fmtB c : Int) then s + (a * pow2 (fmtB c + fmtM c - 1)).floor.toNat
  else s + (e + fmtB c).toNat * 2 ^ fmtM c + ((a * pow2 (-e) - 1) * pow2 (fmtM c)).floor.toNat

def infCode (c : Nat) (neg : Bool) : Nat :=
  (if neg then 2 ^ (fmtM c + fmtE c) else 0) + (2 ^ fmtE c - 1) * 2 ^ fmtM c

/-- The zero of a format with a sign (05 R117): 0x77 for DS8 and 0 for integers. -/
def zeroCode (c : Nat) (neg : Bool) : Nat :=
  if isFloatFmt c then (if neg then 2 ^ (fmtM c + fmtE c) else 0) else if c = 9 then 0x77 else 0

def intMax (c : Nat) : Rat := if fmtSigned c then pow2 (fmtWidth c - 1) - 1 else pow2 (fmtWidth c) - 1
def intMin (c : Nat) : Rat := if fmtSigned c then -pow2 (fmtWidth c - 1) else 0

/-- The code of an exactly representable value. -/
def encV (c : Nat) (q : Rat) : Nat :=
  if q = 0 then zeroCode c false
  else if isFloatFmt c then encF c q
  else wrap (fmtWidth c) q.floor

/-- The smallest code of a DS8 value, 0x77 for zero (05 R114). -/
def ds8Code (q : Rat) : Nat :=
  if q = 0 then 0x77 else ((List.range 256).find? fun x => ds8Val x == q).getD 0x77

/-- The DS8 value nearest to a source, the one of smaller magnitude on a tie (05 R114). -/
def ds8Nearest (q : Rat) : Rat :=
  (List.range 256).foldl
    (fun best x =>
      let v := ds8Val x
      let d := absQ (v - q)
      let b := absQ (best - q)
      if d < b ∨ (d = b ∧ absQ v < absQ best) then v else best) 0

/-- sat_of (05 R117). -/
def satCode (c : Nat) (neg : Bool) : Nat :=
  if isFloatFmt c then encF c (if neg then -fmtMax c else fmtMax c)
  else if c = 9 then ds8Code (if neg then -2 else 2)
  else encV c (if neg then intMin c else intMax c)

/-- Whether a rounded value lies beyond the finite range (05 R117). -/
def beyond (c : Nat) (y : Rat) : Bool :=
  if isFloatFmt c then decide (fmtMax c < absQ y) else decide (y < intMin c) || decide (intMax c < y)

/-- The magnitude below which an inexact result sets UF (05 R117). -/
def minNormal (c : Nat) : Rat := if isFloatFmt c then pow2 (1 - (fmtB c : Int)) else if c = 9 then pow2 (-6) else 0

/-- round_fmt for a DS8 destination and a nonzero finite source (05 R114). -/
def roundDs8 (q : Rat) : Nat × Flags :=
  if 2 < absQ q then (satCode 9 (decide (q < 0)), fOF ||| fNX ||| fSAT)
  else
    let y := ds8Nearest q
    (ds8Code y, flagIf (y != q) fNX ||| flagIf (y != q && decide (absQ q < pow2 (-6))) fUF)

/-- round_fmt for a nonzero finite source and a destination other than DS8 (05 R117). -/
def roundFin (q : Rat) (c mode i : Nat) (conv nov : Bool) : Nat × Flags :=
  let neg := decide (q < 0)
  let u := gridStep c q
  let k := (q / u).floor
  let fr := q / u - k
  let exact := fr == 0
  let y : Rat := if exact then q else (if pickUp mode i k fr neg then (k + 1 : Int) else k) * u
  let f1 := flagIf (!exact) fNX ||| flagIf (!exact && decide (absQ q < minNormal c)) fUF
  if beyond c y then
    let f2 := f1 ||| fOF ||| fNX
    if conv then
      if nov then (canonNaN c, f2) else (satCode c neg, f2 ||| fSAT)
    else if !isFloatFmt c then (satCode c neg, f2)
    else if mode = 1 ∨ (mode = 2 ∧ neg) ∨ (mode = 3 ∧ !neg) then (satCode c neg, f2)
    else (infCode c neg, f2)
  else if c = 2 ∧ absQ y < pow2 (-126) then (zeroCode c neg, f1 ||| fUF ||| fNX)
  else if y = 0 then (zeroCode c neg, f1)
  else (encV c y, f1)

/-- round_fmt (05 R117). -/
def roundFmt (x : XV) (c mode i : Nat) (conv nov : Bool) : Nat × Flags :=
  match x with
  | .nan _ => if fmtHasNaN c then (canonNaN c, 0) else (zeroCode c false, fNV)
  | .inf neg =>
    if fmtHasInf c then (infCode c neg, 0)
    else if nov then (canonNaN c, 0)
    else (satCode c neg, fSAT)
  | .zero neg => (zeroCode c neg, 0)
  | .fin q => if c = 9 then roundDs8 q else roundFin q c mode i conv nov

/-- RNE32 as a code with its flags. -/
def rne32 (x : XV) : Nat × Flags := roundFmt x 0 0 0 false false

/-! Exact arithmetic with the special operands of IEEE 754-2019 (05 R124). Each returns the exact value and the NV
flag of an invalid operation on operands that are not NaN. -/

/-- The sign of an exact zero sum: −0 under RDN (05 R117). -/
def zeroSum (mode : Nat) : XV := .zero (mode == 3)

def XV.neg : XV → XV
  | .nan s => .nan s
  | .inf n => .inf !n
  | .zero n => .zero !n
  | .fin q => .fin (-q)

def XV.abs : XV → XV
  | .nan s => .nan s
  | .inf _ => .inf false
  | .zero _ => .zero false
  | .fin q => .fin (absQ q)

def XV.add (mode : Nat) (x y : XV) : XV × Flags :=
  match x, y with
  | .nan _, _ => (.nan false, 0)
  | _, .nan _ => (.nan false, 0)
  | .inf a, .inf b => if a == b then (.inf a, 0) else (.nan false, fNV)
  | .inf a, _ => (.inf a, 0)
  | _, .inf b => (.inf b, 0)
  | .zero a, .zero b => (if a == b then .zero a else zeroSum mode, 0)
  | .zero _, .fin q => (.fin q, 0)
  | .fin q, .zero _ => (.fin q, 0)
  | .fin p, .fin q => (if p + q = 0 then zeroSum mode else .fin (p + q), 0)

def XV.mul (x y : XV) : XV × Flags :=
  match x, y with
  | .nan _, _ => (.nan false, 0)
  | _, .nan _ => (.nan false, 0)
  | .inf _, .zero _ => (.nan false, fNV)
  | .zero _, .inf _ => (.nan false, fNV)
  | .inf a, y => (.inf (a != y.neg?), 0)
  | x, .inf b => (.inf (x.neg? != b), 0)
  | .zero a, y => (.zero (a != y.neg?), 0)
  | x, .zero b => (.zero (x.neg? != b), 0)
  | .fin p, .fin q => (.fin (p * q), 0)

/-- x × y + z, exact. A NaN among the operands makes no invalid operation (05 R122). -/
def XV.fma (mode : Nat) (x y z : XV) : XV × Flags :=
  if z.isNaN then (.nan false, 0)
  else
    let (p, f) := XV.mul x y
    let (r, g) := XV.add mode p z
    (r, f ||| g)

/-- VDIV (05 R125). -/
def XV.div (x y : XV) : XV × Flags :=
  match x, y with
  | .nan _, _ => (.nan false, 0)
  | _, .nan _ => (.nan false, 0)
  | .inf _, .inf _ => (.nan false, fNV)
  | .zero _, .zero _ => (.nan false, fNV)
  | .inf a, y => (.inf (a != y.neg?), 0)
  | x, .inf b => (.zero (x.neg? != b), 0)
  | .zero a, y => (.zero (a != y.neg?), 0)
  | x, .zero b => (.inf (x.neg? != b), fDZ)
  | .fin p, .fin q => (.fin (p / q), 0)

/-- Integer square root by Newton's iteration from above, `fuel` steps at most. -/
def isqrtAux (n : Nat) : Nat → Nat → Nat
  | 0, x => x
  | fuel + 1, x =>
    let y := (x + n / x) / 2
    if y < x then isqrtAux n fuel y else x

def isqrt (n : Nat) : Nat := if n = 0 then 0 else isqrtAux n 64 (2 ^ (Nat.log2 n / 2 + 1))

/-- √q for rounding: exact when rational, otherwise a value strictly between the same neighbours at more than 200
significant bits, which every rounding of 05 R117 treats as the root (assumption 14). -/
def sqrtQ (q : Rat) : Rat :=
  let n := q.num.toNat
  let a := isqrt n
  let b := isqrt q.den
  if a * a = n ∧ b * b = q.den then (a : Rat) / (b : Rat)
  else
    let k := 256 + Nat.log2 q.den
    ((isqrt (n * 4 ^ k / q.den) : Nat) + 1 / 2) / ((2 ^ k : Nat) : Rat)

/-- VSQRT (05 R125). -/
def XV.sqrt : XV → XV × Flags
  | .nan _ => (.nan false, 0)
  | .zero n => (.zero n, 0)
  | .inf n => if n then (.nan false, fNV) else (.inf false, 0)
  | .fin q => if q < 0 then (.nan false, fNV) else (.fin (sqrtQ q), 0)

/-- VRCP (05 R125). -/
def XV.rcp : XV → XV × Flags
  | .nan _ => (.nan false, 0)
  | .zero n => (.inf n, fDZ)
  | .inf n => (.zero n, 0)
  | .fin q => (.fin (1 / q), 0)

/-- VRSQ (05 R125). -/
def XV.rsq : XV → XV × Flags
  | .nan _ => (.nan false, 0)
  | .zero n => (.inf n, fDZ)
  | .inf n => if n then (.nan false, fNV) else (.zero false, 0)
  | .fin q => if q < 0 then (.nan false, fNV) else (.fin (sqrtQ (1 / q)), 0)

/-- The factors 2^(2^-1), 2^(2^-2), … in units of 2^-320, rounded down, multiplied in for the set bits of a fraction
`f` in [0, 1). -/
def exp2Frac : Nat → Nat → Rat → Nat → Nat
  | 0, _, _, acc => acc
  | n + 1, root, f, acc =>
    if f = 0 then acc
    else
      let r := isqrt (root * 2 ^ 320)
      let f2 := 2 * f
      if 1 ≤ f2 then exp2Frac n r (f2 - 1) (acc * r / 2 ^ 320) else exp2Frac n r f2 acc

/-- 2^q for rounding (assumption 14). -/
def exp2Q (q : Rat) : Rat :=
  let k := q.floor
  let f := q - k
  let k' := max (-4000) (min 4000 k)
  if f = 0 then pow2 k'
  else (((exp2Frac 160 (2 * 2 ^ 320) f (2 ^ 320) / 2 ^ 20 : Nat) : Rat) + 1 / 2) / ((2 ^ 300 : Nat) : Rat) * pow2 k'

/-- VEXP2 (05 R125). -/
def XV.exp2 : XV → XV × Flags
  | .nan _ => (.nan false, 0)
  | .zero _ => (.fin 1, 0)
  | .inf n => (if n then .zero false else .inf false, 0)
  | .fin q => (.fin (exp2Q q), 0)

/-- Binary digits of log2 of a number in [1, 2), held in units of 2^-512, by repeated squaring. -/
def log2Digits : Nat → Nat → Nat → Nat
  | 0, _, acc => acc
  | n + 1, y, acc =>
    let z := y * y / 2 ^ 512
    if 2 ^ 513 ≤ z then log2Digits n (z / 2) (2 * acc + 1) else log2Digits n z (2 * acc)

/-- log2 q for rounding (assumption 14). -/
def log2Q (q : Rat) : Rat :=
  let e := floorLog2 q
  let m := q * pow2 (-e)
  if m = 1 then (e : Rat)
  else (e : Rat) + (((log2Digits 200 (m * ((2 ^ 512 : Nat) : Rat)).floor.toNat 0 : Nat) : Rat) + 1 / 2)
    / ((2 ^ 200 : Nat) : Rat)

/-- VLOG2 (05 R125). -/
def XV.log2 : XV → XV × Flags
  | .nan _ => (.nan false, 0)
  | .zero _ => (.inf true, fDZ)
  | .inf n => if n then (.nan false, fNV) else (.inf false, 0)
  | .fin q => if q < 0 then (.nan false, fNV) else (XV.ofRat (log2Q q), 0)

/-- VSCALE: x × 2^k (08 R194, R195; IEEE 754-2019 scaleB). -/
def XV.scale (x : XV) (k : Int) : XV :=
  match x with
  | .fin q => .fin (q * pow2 (max (-5000) (min 5000 k)))
  | y => y

/-- Numeric order with −0 below +0 (08 R195); both operands are not NaN. -/
def XV.rankLt (x y : XV) : Bool :=
  match x, y with
  | .inf a, .inf b => a && !b
  | .inf a, _ => a
  | _, .inf b => !b
  | .zero a, .zero b => a && !b
  | .zero _, .fin q => decide (0 < q)
  | .fin q, .zero _ => decide (q < 0)
  | .fin p, .fin q => decide (p < q)
  | _, _ => false

/-- The smaller, and the larger, of two values; a NaN gives NaN (08 R195). -/
def XV.min (x y : XV) : XV :=
  if x.isNaN || y.isNaN then .nan false else if XV.rankLt y x then y else x
def XV.max (x y : XV) : XV :=
  if x.isNaN || y.isNaN then .nan false else if XV.rankLt x y then y else x

/-- Numeric comparison with −0 equal to +0 (08 R196). -/
def XV.numLt (x y : XV) : Bool :=
  match x, y with
  | .zero _, .zero _ => false
  | x, y => XV.rankLt x y
def XV.numEq (x y : XV) : Bool := !XV.numLt x y && !XV.numLt y x && !x.isNaN && !y.isNaN

/-- The code of a value that an exact operation delivers: NaN made canonical (05 R110). -/
def exactCode (c : Nat) (x : XV) : Nat :=
  match x with
  | .nan _ => canonNaN c
  | .inf n => infCode c n
  | .zero n => zeroCode c n
  | .fin q => encV c q

/-! Scales and quantisation (05 R111-R115). -/

/-- The value of an E8M0 code; none is NaN (05 R111). -/
def e8m0 (x : Nat) : Option Rat := if x % 256 = 255 then none else some (pow2 ((x % 256 : Nat) - 127))

/-- emax of 05 R112. -/
def mxEmax (c : Nat) : Int := if c = 3 then 8 else if c = 4 then 15 else if c = 5 then 4 else 2

def clampInt (x lo hi : Int) : Int := max lo (min hi x)

end Sys2Proof.Machine
end

