-- ==== Sys2Proof/Machine/Cones.lean ====
section
/-! DEFINITION. The cone unit (10 R259-R268): one operation on one cone at a time (R263). -/

namespace Sys2Proof.Machine

open Sys2Proof

def cConeState : Nat := 0x18
def cConeCount : Nat := 0x19

/-- The member clusters of a compact on this device (13 R316). -/
def State.compactMask (s : State) (c : Compact) : BitVec 512 :=
  match (c.devs.zip c.masks).find? fun p => p.1 == s.devnum.toNat with
  | some p => p.2
  | none => 0

/-- The compact in which a cluster is a member, once it has passed Signing (13 R321) or converted its lines there. -/
def State.compactAt (s : State) (clus : Nat) : Option Compact :=
  s.compacts.find? fun c => (c.st != .signing || c.ready.contains s.devnum.toNat) && (s.compactMask c).getLsbD clus

/-- Cone n127 of a member tile is reserved by its compact (10 R261, R280). -/
def State.coneReserved (s : State) (clus cid : Nat) : Bool := cid % 128 == 127 && (s.compactAt clus).isSome

/-- A phase completes or an event is signalled: PHASE flips and every waiter wakes and acquires the releases that
counted (10 R263, R264). -/
def State.flipCone (s : State) (clus cid : Nat) (k : Clock) : State :=
  let c := s.cone clus cid
  let s1 := s.setCone clus cid { c with a := 0, phase := !c.phase, waiters := [], clk := [], done := k }
  c.waiters.foldl (fun st w => (st.wake w 1 0).acquire w k) s1

/-- The test after every operation in barrier mode (10 R263). -/
def State.checkFlip (s : State) (clus cid : Nat) : State :=
  let c := s.cone clus cid
  if c.mode == 0 && c.a == c.e && c.pb == 0 then s.flipCone clus cid c.clk else s

/-- An i32 (10 R259, R263). -/
def i32Ok (x : Int) : Bool := decide (-2147483648 ≤ x) && decide (x < 2147483648)

/-- One arrival that registers `n` bytes; `none` is the cone-count failure (10 R263). -/
def State.arriveCone (s : State) (clus cid n : Nat) (k : Clock) : Option State :=
  let c := s.cone clus cid
  if c.a == c.e || !i32Ok (c.pb + n) then none
  else some ((s.setCone clus cid { c with a := c.a + 1, pb := c.pb + n, clk := Clock.join c.clk k }).checkFlip clus cid)

/-- A pending-byte decrement (10 R263). -/
def State.bytesCone (s : State) (clus cid n : Nat) (k : Clock) : Option State :=
  let c := s.cone clus cid
  if !i32Ok (c.pb - n) then none
  else some ((s.setCone clus cid { c with pb := c.pb - n, clk := Clock.join c.clk k }).checkFlip clus cid)

/-- The general conditions of 10 R261 for an operation by `dom` that fits the modes of `modes`. -/
def State.coneOk (s : State) (clus cid dom : Nat) (modes : List Nat) : Bool :=
  let c := s.cone clus cid
  c.init && c.dom == dom && modes.contains c.mode && !s.coneReserved clus cid

/-- What would fault is dropped and counted (10 R261). -/
def State.coneDrop (s : State) (clus : Nat) : State := s.updClus clus fun c => { c with coneErr := c.coneErr + 1 }

/-- An arrival from outside the cluster's tasks: remote arrivals and copy completions (10 R261, R263, R264). A copy
completion at an event cone counts as EVSIG. -/
def State.remoteArrive (s : State) (clus cid dom : Nat) (copy : Bool) (k : Clock) : State :=
  if s.coneOk clus cid dom [0] then (s.arriveCone clus cid 0 k).getD (s.coneDrop clus)
  else if copy && s.coneOk clus cid dom [1] then s.flipCone clus cid k
  else s.coneDrop clus

/-- A remote signal (10 R261). -/
def State.remoteSignal (s : State) (clus cid dom : Nat) (k : Clock) : State :=
  if s.coneOk clus cid dom [1] then s.flipCone clus cid k else s.coneDrop clus

/-- A CPYR's pending-byte decrement (10 R255, R263). -/
def State.remoteBytes (s : State) (clus cid n dom : Nat) (k : Clock) : State :=
  if s.coneOk clus cid dom [0] then (s.bytesCone clus cid n k).getD (s.coneDrop clus) else s.coneDrop clus

/-- The waiters of a cone wake and acquire what its completion publishes. -/
def State.wakeWaiters (s : State) (l : List Nat) (k : Clock) : State := l.foldl (fun st w => (st.wake w 1 0).acquire w k) s

/-- A holder passes a mutex on: to the task that has waited longest to hold it, whose MUTEXL gets `result`, or to nobody.
PHASE flips, and the tasks that wait for that wake (10 R265, R268). -/
def State.passMutex (s : State) (clus cid result : Nat) (k : Clock) : State :=
  let c := s.cone clus cid
  match c.lockers with
  | [] => (s.setCone clus cid { c with holder := 0, phase := !c.phase, waiters := [], done := k }).wakeWaiters c.waiters k
  | w :: r =>
    let h := handleOf (s.task w).gen w
    (((s.setCone clus cid { c with holder := h, phase := !c.phase, waiters := [], lockers := r, done := k }).wake w 1
      result).acquire w k).wakeWaiters c.waiters k

/-- A task leaves the queues of every cone of its cluster (a timeout, a trap, its end). -/
def State.leaveCones (s : State) (t : Nat) : State :=
  s.updClus (clusOf (s.task t).tile) fun x =>
    { x with cones := x.cones.mapVal fun c =>
        { c with waiters := c.waiters.filter (· != t), lockers := c.lockers.filter (· != t) } }

/-- A holder that ends passes on every mutex it holds (10 R268). -/
def State.endMutexes (s : State) (t : Nat) : State :=
  let h := handleOf (s.task t).gen t
  let clus := clusOf (s.task t).tile
  let held := (s.clus clus).cones.filter fun p => p.2.init && p.2.mode == 2 && p.2.holder == h
  held.foldl (fun st p =>
    let (k, st1) := st.release t
    st1.passMutex clus p.1 2 k) s

end Sys2Proof.Machine
end

