-- ==== Sys2Proof/Machine/Transport.lean ====
section
/-! DEFINITION. The sending side of Ultra Ethernet (20 R393) and what is dropped under 10 R248. -/

namespace Sys2Proof.Machine

open Sys2Proof

/-- Whether port `p` can carry packets to a device: it is enabled and up, and the table that UETMAP was read from holds an
address for it (20 R385, R393). -/
def State.portOpen (s : State) (dev p : Nat) : Bool :=
  let c := s.uetcfg.toList.getD p 0
  bit1 c 0 && bit1 c 1 && s.uetTable.num (128 * dev + 16 * p) 16 != 0

/-- Whether a device number resolves. -/
def State.uetReach (s : State) (dev : Nat) : Bool := (List.range 8).any (s.portOpen dev)

/-- The port of packet number `n`: RUD packets are sprayed over the open ports (20 R393). -/
def State.sprayPort (s : State) (dev n : Nat) : Nat :=
  let l := (List.range 8).filter (s.portOpen dev)
  l.getD (n % Nat.max 1 l.length) 0

/-- What is sent to an absent cluster or an unreachable device is dropped and counted (10 R248, 20 R385). -/
def State.dropSend (s : State) (clus : Nat) : State :=
  let s1 := s.updClus clus fun c => { c with dropErr := c.dropErr + 1 }
  { s1 with delDrop := (s1.delDrop + 1) % 2 ^ 32 }.tell (.dropped clus)

/-- Packets of an ordered flow: messages, remote arrivals and remote signals (20 R393). -/
def orderedBody : PacketBody → Bool
  | .message .. | .arrival .. | .signal .. => true
  | _ => false

/-- A packet leaves for another device; `task` and `ref` say whose acknowledgement it awaits, `start` is the first element
that it carries, and `clus` its cluster. An ordered packet follows the last one of its task to that device that is not acknowledged. -/
def State.sendPacketAt (s : State) (dev : Nat) (body : PacketBody) (task ref start : Nat) (clk : Clock) (clus : Nat := 0) : State :=
  let (n, s1) := s.newId
  let after := if orderedBody body then
      ((s.uetOut.filter fun u => u.task == task && u.pkt.dev == dev && orderedBody u.pkt.body).getLast?).map (·.pkt.num)
    else none
  let p : Packet := { num := n, dev := dev, clk := clk, body := body, after := after }
  let port := s.sprayPort dev n
  let u : UePkt := { pkt := p, port := port, start := start, sentAt := s1.cycle, tries := 0, task := task, ref := ref,
                     clus := clus }
  let s2 : State := { s1 with uetOut := s1.uetOut ++ [u] }
  if s.uetReach dev then s2.emit (.uetPacket port p) else s2

def State.sendPacket (s : State) (dev : Nat) (body : PacketBody) (task ref : Nat) (clk : Clock) (clus : Nat := 0) : State :=
  s.sendPacketAt dev body task ref 0 clk clus

/-! Target words (10 R248). -/

def twDev (w : Word) : Nat := Word.bits w 29 20
def twClus (w : Word) : Nat := Word.bits w 19 11
def twCid (w : Word) : Nat := Word.bits w 9 0
/-- Reserved bits of a target word. -/
def twBad (w : Word) : Bool := Word.bits w 63 30 != 0 || bit1 w 10

end Sys2Proof.Machine
end

