-- ==== Sys2Proof/Machine/Views.lean ====
section
/-! DEFINITION. Byte ranges and two-dimensional views of device memory as the engines reach them (01 R41, R42;
09 R229), the Z-order mapping among them. -/

namespace Sys2Proof.Machine

open Sys2Proof

/-! Z-order (01 R41). -/

/-- interleave (01 R41): `n` levels from `pos` upwards. -/
def interleaveAux (a na b nb : Nat) : Nat → Nat → Nat → Nat
  | 0, _, _ => 0
  | n + 1, i, pos =>
    let x := if i < nb then b / 2 ^ i % 2 * 2 ^ pos else 0
    let p1 := if i < nb then pos + 1 else pos
    let y := if i < na then a / 2 ^ i % 2 * 2 ^ p1 else 0
    let p2 := if i < na then p1 + 1 else p1
    x + y + interleaveAux a na b nb n (i + 1) p2

def interleave (a na b nb : Nat) : Nat := interleaveAux a na b nb (Nat.max na nb) 0 0

/-- zorder_offset (01 R41). -/
def zorderOffset (row col m n : Nat) : Nat :=
  row % 4 * 4 + col % 4 + 16 * interleave (row / 4) (m - 2) (col / 4) (n - 2)

/-- A layout word (09 R229). -/
structure Layout where
  pitch : Nat
  lm : Nat
  ln : Nat
  t : Bool
  z : Bool
  esz : Nat
  rsv : Bool

def layoutOf (b : Word) : Layout :=
  { pitch := Word.bits b 63 32, lm := Word.bits b 23 20, ln := Word.bits b 19 16, t := bit1 b 4, z := bit1 b 3,
    esz := Word.bits b 2 0, rsv := Word.bits b 31 24 != 0 || Word.bits b 15 5 != 0 }

/-- The width that ESZ names (09 R229). -/
def eszWidth (e : Nat) : Nat := [4, 6, 8, 16, 32].getD e 0

/-- layout_bit (09 R229). -/
def layoutBit (base : Nat) (l : Layout) (w i j : Nat) : Nat :=
  if !l.z then
    let sr := if l.t then j else i
    let sc := if l.t then i else j
    8 * (base + sr * l.pitch) + sc * w
  else
    let cv := 2 ^ (if l.t then l.lm else l.ln)
    let jj := j % cv
    let p := if l.t then zorderOffset jj i l.lm l.ln else zorderOffset i jj l.lm l.ln
    8 * (base + j / cv * l.pitch) + p * w

/-- The Wheel-operand conditions on a layout word for a view of `v` rows by `c` columns of `w` bits (09 R229). -/
def layoutOk (l : Layout) (w v c : Nat) : Bool :=
  eszWidth l.esz == w && l.esz ≤ 4 && !l.rsv &&
    if !l.z then
      l.lm == 0 && l.ln == 0 && l.pitch % 16 == 0 && decide (divUp ((if l.t then v else c) * w) 8 ≤ l.pitch)
    else
      decide (2 ≤ l.lm) && decide (l.lm ≤ 10) && decide (2 ≤ l.ln) && decide (l.ln ≤ 10) && l.pitch % 128 == 0
        && decide (2 ^ (l.lm + l.ln) * w / 8 ≤ l.pitch) && decide (v ≤ 2 ^ (if l.t then l.ln else l.lm))

/-! Ranges of device memory, in pieces of one line (11 R297). -/

/-- The pieces of `n` bytes from `va`, one for each 128-byte line. -/
def pieces (va n : Nat) : List (Nat × Nat) :=
  (linesOf va n).map fun l =>
    let lo := Nat.max va (l * 128)
    (lo, Nat.min (va + n) (l * 128 + 128) - lo)

/-- One data access of an engine. -/
def engAcc (va n : Nat) (wr : Bool) : Acc := { va := BitVec.ofNat 64 va, n := n, al := 1, wr := wr }

/-- Reads one piece. -/
def State.readPiece (s : State) (w : Who) (p : Nat × Nat) : Except Chk (List Byte × State) :=
  let a := engAcc p.1 p.2 false
  match s.check w a with
  | .ok pa t => .ok (s.mem.read pa p.2, (s.readAt w a pa t).2)
  | c => .error c

/-- Reads a range of any length. -/
def State.readRange (s : State) (w : Who) (va n : Nat) : Except Chk (List Byte × State) :=
  (pieces va n).foldlM
    (fun acc p => do
      let (bs, s2) ← acc.2.readPiece w p
      return (acc.1 ++ bs, s2)) ([], s)

/-- Writes one piece. -/
def State.writePiece (s : State) (w : Who) (va : Nat) (bs : List Byte) : Except Chk State :=
  let a := engAcc va bs.length true
  match s.check w a with
  | .ok pa t => .ok (((s.note w a pa t).dirOwnAt (clusOf w.tile) pa bs.length).putBytes pa bs)
  | c => .error c

/-- Checks every piece of a write before the first byte is stored. -/
def State.checkWrite (s : State) (w : Who) (va n : Nat) : Except Chk Unit :=
  (pieces va n).forM fun p =>
    match s.check w (engAcc p.1 p.2 true) with
    | .ok _ _ => .ok ()
    | c => .error c

def State.writeRange (s : State) (w : Who) (va : Nat) (bs : List Byte) : Except Chk State :=
  (pieces va bs.length).foldlM (fun st p => st.writePiece w p.1 ((bs.drop (p.1 - va)).take p.2)) s

/-- Reads the `n` bits at a bit address. -/
def State.readBits (s : State) (w : Who) (bit n : Nat) : Except Chk (Nat × State) := do
  let (bs, s1) ← s.readRange w (bit / 8) (divUp (bit % 8 + n) 8)
  return (bytesNum bs / 2 ^ (bit % 8) % 2 ^ n, s1)

/-- The bytes at a physical address with bits replaced. -/
def mixBits (old bit n x : Nat) : Nat :=
  old - old / 2 ^ bit % 2 ^ n * 2 ^ bit + x % 2 ^ n * 2 ^ bit

/-- The pieces of an element's write, once each has passed its checks. -/
def State.placeBits (s : State) (w : Who) (bit n : Nat) : Except Chk (List (Acc × Nat × Tr)) :=
  (pieces (bit / 8) (divUp (bit % 8 + n) 8)).mapM fun p =>
    let a := engAcc p.1 p.2 true
    match s.check w a with
    | .ok pa t => .ok (a, pa, t)
    | c => .error c

/-- Writes the `n` bits at a bit address into the places that their checks gave; the other bits of its bytes keep their values
(09 R243). -/
def State.putBits (s : State) (w : Who) (l : List (Acc × Nat × Tr)) (bit n x : Nat) : State :=
  l.foldl (fun st p =>
    let lo := 8 * p.1.va.toNat
    let first := Nat.max lo bit
    let upto := Nat.min (lo + 8 * p.1.n) (bit + n)
    st.writeAt w p.1 p.2.1 p.2.2 (mixBits (st.mem.num p.2.1 p.1.n) (first - lo) (upto - first) (x / 2 ^ (first - bit)))) s

/-- Writes the `n` bits at a bit address. -/
def State.writeBits (s : State) (w : Who) (bit n x : Nat) : Except Chk State :=
  (s.placeBits w bit n).map fun l => s.putBits w l bit n x

/-- Reads a view of `v` rows by `c` columns, row by row. -/
def State.readView (s : State) (w : Who) (base : Nat) (l : Layout) (wd v c : Nat) :
    Except Chk (List (List Nat) × State) :=
  (List.range v).foldlM
    (fun acc i => do
      let (row, s1) ← (List.range c).foldlM
        (fun (p : List Nat × State) j => do
          let (x, s2) ← p.2.readBits w (layoutBit base l wd i j) wd
          return (p.1 ++ [x], s2)) ([], acc.2)
      return (acc.1 ++ [row], s1)) ([], s)

end Sys2Proof.Machine
end

