-- ==== Sys2Proof/Machine/Spline.lean ====
section
/-! DEFINITION. Rounded FP32 arithmetic with its flags, and the spline functions of the Wheel (05 R130-R135). -/

namespace Sys2Proof.Machine

open Sys2Proof

/-- An FP32 value with the flags of the operations that led to it. -/
abbrev FX := XV × Flags

/-- An FP32 code as a value; a signalling NaN sets NV (05 R110). -/
def fx (code : Nat) : FX := (dec 0 code, (dec 0 code).sigFlags)

/-- A BF16 code as the Wheel reads it: it sets no DF (05 R123, R128). -/
def fxB (code : Nat) : FX := (dec 2 code, (dec 2 code).sigFlags)

/-- An exact rational constant. -/
def fxQ (q : Rat) : FX := (XV.ofRat q, 0)

/-- The quiet NaN. -/
def fxNaN : FX := (.nan false, 0)

/-- RNE32 of an exact result (05 R117). -/
def fxRound (r : XV × Flags) (f : Flags) : FX :=
  let (c, g) := rne32 r.1
  (dec 0 c, r.2 ||| f ||| g)

def FX.add (a b : FX) : FX := fxRound (XV.add 0 a.1 b.1) (a.2 ||| b.2)
def FX.sub (a b : FX) : FX := fxRound (XV.add 0 a.1 b.1.neg) (a.2 ||| b.2)
def FX.mul (a b : FX) : FX := fxRound (XV.mul a.1 b.1) (a.2 ||| b.2)
def FX.div (a b : FX) : FX := fxRound (XV.div a.1 b.1) (a.2 ||| b.2)
def FX.neg (a : FX) : FX := (a.1.neg, a.2)
/-- The FP32 code of a value already rounded. -/
def FX.code (a : FX) : Nat := exactCode 0 a.1

/-- spline_basis (05 R130). -/
def splineBasis (f : FX) (d : Nat) : List FX :=
  let c := fxQ
  let g := (c 1).sub f
  if d = 1 then [g, f]
  else
    let f2 := f.mul f
    let g2 := g.mul g
    if d = 2 then
      let v := (((c 2).mul f).sub ((c 2).mul f2)).add (c 1)
      [g2.div (c 2), v.div (c 2), f2.div (c 2)]
    else
      let f3 := f2.mul f
      let g3 := g2.mul g
      let t1 := (c 3).mul f3
      let w1 := ((t1.sub ((c 6).mul f2)).add (c 4)).div (c 6)
      let w2 := (((((c 3).mul f2).sub t1).add ((c 3).mul f)).add (c 1)).div (c 6)
      [g3.div (c 6), w1, w2, f3.div (c 6)]

/-- spline_dbasis (05 R130). -/
def splineDbasis (f : FX) (d : Nat) : List FX :=
  let c := fxQ
  if d = 1 then [c (-1), c 1]
  else
    let g := (c 1).sub f
    if d = 2 then [g.neg, (c 1).sub ((c 2).mul f), f]
    else
      let f2 := f.mul f
      let g2 := g.mul g
      let v1 := (c 3).mul f2
      let w1 := (v1.sub ((c 4).mul f)).div (c 2)
      let w2 := ((((c 2).mul f).sub v1).add (c 1)).div (c 2)
      [(g2.div (c 2)).neg, w1, w2, f2.div (c 2)]

/-- spline_sum (05 R130): the weights against the coefficients from index `n`. -/
def splineSum (w : List FX) (coef : Nat → FX) (n : Nat) : FX :=
  match w with
  | [] => fxQ 0
  | w0 :: ws => (ws.zipIdx).foldl (fun s p => s.add (p.1.mul (coef (n + 1 + p.2)))) (w0.mul (coef n))

/-- A knot register's fields (09 R217). -/
structure Knot where
  lo : FX
  invh : FX
  g : Nat
  deg : Nat
  mode : Nat

def knotOf (k : BitVec 128) : Knot :=
  { lo := fx (k.toNat % 2 ^ 32), invh := fx (Nat.bits k.toNat 63 32), g := Nat.bits k.toNat 71 64,
    deg := Nat.bits k.toNat 79 72, mode := Nat.bits k.toNat 87 80 }

/-- The limits of a knot image (09 R217, R233). -/
def knotOk (k : BitVec 128) : Bool :=
  let kn := knotOf k
  (match kn.lo.1 with
    | .nan _ => false
    | .inf _ => false
    | _ => true)
    && (match kn.invh.1 with
      | .fin q => decide (0 < q)
      | _ => false)
    && decide (1 ≤ kn.g) && decide (kn.g ≤ 16) && decide (1 ≤ kn.deg) && decide (kn.deg ≤ 3) && decide (kn.mode ≤ 2)
    && Nat.bits k.toNat 127 88 == 0

/-- A spline cell: coefficients and base weight (05 R131). -/
structure Cell where
  coef : Nat → FX
  wb : FX

/-- Where an input falls (05 R131): in grid with interval and fraction; out of grid with edge, interval, fraction and
t − e; or a NaN. The flags are those of forming t, with OUTGRID out of grid. For t = −0 the fraction is +0, a DESIGN CHOICE
(assumption 79). -/
inductive Place where
  | nan (f : Flags)
  | grid (n : Nat) (f : FX)
  | out (n : Nat) (f : FX) (te : FX) (fl : Flags)

def place (x : FX) (kn : Knot) : Place :=
  if x.1.isNaN then .nan x.2
  else
    let t := (x.sub kn.lo).mul kn.invh
    if !XV.numLt t.1 (.zero false) && !t.1.isNaN && XV.numLt t.1 (XV.ofRat kn.g) then
      match t.1 with
      | .fin q => .grid q.floor.toNat (XV.ofRat (q - q.floor), t.2)
      | _ => .grid 0 (XV.zero false, t.2)
    else
      let fl := t.2 ||| fOUT
      if XV.numLt t.1 (.zero false) then .out 0 (XV.zero false, fl) (t.sub (fxQ 0)) fl
      else .out (kn.g - 1) (XV.fin 1, fl) (t.sub (fxQ kn.g)) fl

/-- spline_cell (05 R131). -/
def splineCell (x : FX) (kn : Knot) (c : Cell) : FX :=
  match place x kn with
  | .nan f => (.nan false, f)
  | .grid n f => (splineSum (splineBasis f kn.deg) c.coef n).add (c.wb.mul x)
  | .out n f te fl =>
    let base := c.wb.mul x
    if kn.mode = 2 then (base.1, base.2 ||| fl)
    else
      let se := splineSum (splineBasis f kn.deg) c.coef n
      if kn.mode = 0 then se.add base
      else (se.add ((splineSum (splineDbasis f kn.deg) c.coef n).mul te)).add base

/-- The derivative of a cell (05 R134). -/
def splineFprime (x : FX) (kn : Knot) (c : Cell) : FX :=
  match place x kn with
  | .nan f => (.nan false, f)
  | .grid n f => ((splineSum (splineDbasis f kn.deg) c.coef n).mul kn.invh).add c.wb
  | .out n f _ fl =>
    if kn.mode = 1 then
      let y := ((splineSum (splineDbasis f kn.deg) c.coef n).mul kn.invh).add c.wb
      (y.1, y.2 ||| fl)
    else (c.wb.1, c.wb.2 ||| fl)

/-- The weights of the coefficient gradients with the index of the first (05 R133). -/
def gradWeights (x : FX) (kn : Knot) : Nat × List FX × Flags :=
  match place x kn with
  | .nan f => (0, [], f)
  | .grid n f => (n, splineBasis f kn.deg, f.2)
  | .out n f te fl =>
    if kn.mode = 0 then (n, splineBasis f kn.deg, fl)
    else if kn.mode = 2 then (n, [], fl)
    else (n, ((splineBasis f kn.deg).zip (splineDbasis f kn.deg)).map fun p => p.1.add (p.2.mul te), fl)

/-- The new coefficients of 05 R135: index, terms as (weight, old index), and the divisor. -/
def refineTerms (g d : Nat) : List (Nat × List (Nat × Nat) × Nat) :=
  if d = 3 then
    ((List.range (g + 1)).map fun i => (2 * (i + 1) - 1, [(1, i), (6, i + 1), (1, i + 2)], 8))
      ++ (List.range (g + 2)).map fun k => (2 * k, [(1, k), (1, k + 1)], 2)
  else if d = 2 then
    ((List.range (g + 1)).map fun k => (2 * k, [(3, k), (1, k + 1)], 4))
      ++ (List.range (g + 1)).map fun k => (2 * k + 1, [(1, k), (3, k + 1)], 4)
  else
    ((List.range (g + 1)).map fun k => (2 * k, [(1, k)], 1))
      ++ (List.range g).map fun k => (2 * k + 1, [(1, k), (1, k + 1)], 2)

/-- One new coefficient as a BF16 code (05 R135). -/
def refineCoef (old : Nat → FX) (terms : List (Nat × Nat)) (divisor : Nat) : Nat × Flags :=
  let parts := terms.map fun t => (XV.mul (XV.fin t.1) (old t.2).1).1
  let anyNaN := terms.any fun t => (old t.2).1.isNaN
  let sum :=
    match parts with
    | [] => (XV.zero false, (0 : Flags))
    | p :: ps => ps.foldl (fun a y => ((XV.add 0 a.1 y).1, a.2 ||| (XV.add 0 a.1 y).2)) (p, 0)
  let q := (XV.mul sum.1 (XV.fin (1 / (divisor : Rat)))).1
  let (c, f) := roundFmt q 2 0 0 false false
  (c, f ||| sum.2 ||| flagIf anyNaN fNV)

/-- wheel_group (05 R127, R128): the exact sum of one group. -/
def wheelGroup (ab : List (XV × XV)) (ea eb : Nat) : XV × Flags :=
  if ea = 0xFF ∨ eb = 0xFF then (.nan false, 0)
  else
    let ps : List (XV × Flags) :=
      ab.map fun p => ((XV.mul p.1 p.2).1, (XV.mul p.1 p.2).2 ||| p.1.sigFlags ||| p.2.sigFlags)
    let fl := ps.foldl (fun f p => f ||| p.2) (0 : Flags)
    let sum :=
      match ps with
      | [] => (XV.zero false, fl)
      | p :: r => r.foldl (fun (a y : XV × Flags) => ((XV.add 0 a.1 y.1).1, a.2 ||| (XV.add 0 a.1 y.1).2))
          (p.1, fl ||| flagIf (ps.any (fun y => y.1 == XV.inf false) && ps.any (fun y => y.1 == XV.inf true)) fNV)
    (XV.scale sum.1 ((ea : Int) + eb - 254), sum.2)

end Sys2Proof.Machine
end

