-- ==== Sys2Proof/Machine/Wheel.lean ====
section
/-! DEFINITION. What the commands of a cluster's Wheel do (09 R214-R217, R230-R245). The arrangement of values inside a
bat slot is the model's own (assumption 25): the codes of a pass lie row by row, bit-packed. -/

namespace Sys2Proof.Machine

open Sys2Proof

/-- A command fails with a cause of 09 R223, an address, whether the access writes and, for a conflict, whether the earlier
access wrote; it has read a poisoned word of the Wheel; or an access waits. -/
inductive WFail where
  | fault (cause : Nat) (addr : Word) (wr : Bool) (pw : Bool := false)
  | machine
  | wait (k : Chk)
  deriving DecidableEq, Repr

/-- A failing access of a command (09 R223 cause 1); a wait at the home delays the command. -/
def wchk {α : Type} (x : Except Chk α) : Except WFail α :=
  match x with
  | .ok a => .ok a
  | .error (.trap t) => .error (.fault 1 t.addr t.w t.pw)
  | .error k => .error (.wait k)

/-! The operation word (09 R228). -/

def opRib1 (c : Word) : Nat := Word.bits c 63 48
def opRib0 (c : Word) : Nat := Word.bits c 47 32
def opNp (c : Word) : Nat := Word.bits c 30 27
def opBslot (c : Word) : Nat := Word.bits c 26 21
def opM (c : Word) : Nat := Word.bits c 20 10
def opSrow (c : Word) : Nat := Word.bits c 9 0

/-- K of a format of A (09 R230). -/
def wheelK (fmta : Nat) : Nat :=
  match fmta with
  | 7 => 192
  | 5 | 6 => 128
  | 3 | 4 => 96
  | _ => 48

/-- The accepted pairs (09 R230). -/
def wheelPair (fmta fmtb : Nat) : Bool :=
  match fmta with
  | 7 => fmtb == 7
  | 5 | 6 => [5, 6, 7].contains fmtb
  | 3 | 4 => [3, 4, 5, 6, 7, 9].contains fmtb
  | 1 => [1, 2].contains fmtb
  | 2 => [1, 2, 9].contains fmtb
  | _ => false

/-- The group size (05 R127, 09 R230). -/
def wheelG (fmta fmtb : Nat) : Nat := if (fmta == 1 || fmta == 2) && fmtb != 9 then 16 else 32

/-- Slots of one pass (09 R215). -/
def wheelSpp (fmta fmtb : Nat) (p24 : Bool) : Nat :=
  let wB := fmtWidth fmtb
  if p24 then divUp (16 * wheelK fmta * (wB + 2)) 4096 else divUp (32 * wheelK fmta * wB) 4096

/-! The memories of a Wheel. -/

def Wheel.sagAt (w : Wheel) (row col : Nat) : Nat := (w.sag.getD (row * 256 + col) 0).toNat
def Wheel.setSag (w : Wheel) (row col code : Nat) : Wheel :=
  if code % 2 ^ 32 = 0 then { w with sag := w.sag.del (row * 256 + col) }
  else { w with sag := w.sag.set (row * 256 + col) (BitVec.ofNat 32 code) }
/-- A whole row is written in one step (09 R220). -/
def Wheel.setRow (w : Wheel) (row col0 : Nat) (codes : List Nat) : Wheel :=
  (codes.zipIdx).foldl (fun x p => x.setSag row (col0 + p.2) p.1) w
def Wheel.tag (w : Wheel) (slot : Nat) : Tag := w.tags.getD slot .empty
def Wheel.setTag (w : Wheel) (slot : Nat) (t : Tag) : Wheel :=
  if t = .empty then { w with tags := w.tags.del slot } else { w with tags := w.tags.set slot t }
def Wheel.knot (w : Wheel) (i : Nat) : BitVec 128 := w.kn.getD i 0
def Wheel.setKnot (w : Wheel) (i : Nat) (k : BitVec 128) : Wheel :=
  if k = 0 then { w with kn := w.kn.del i } else { w with kn := w.kn.set i k }
/-- KNA and KNB of a knot register show what it holds (09 R225). -/
def Wheel.showKnot (w : Wheel) (i : Nat) : Wheel :=
  if w.knot i = 0 then { w with knSeen := w.knSeen.del i } else { w with knSeen := w.knSeen.set i (w.knot i) }

/-! B operands (09 R215, R231). -/

/-- The two nonzero codes of each aligned group of four rows, as entries of 2 × 2 index bits and two codes; equal
indices leave the second unused. `none` where a group holds more (09 R231). -/
def pruneGroup (fmtb : Nat) (codes : List Nat) : Option Nat :=
  let wB := fmtWidth fmtb
  let nz := (codes.zipIdx).filter fun p =>
    match dec fmtb p.1 with
    | .zero _ => false
    | _ => true
  match nz with
  | [] => some (zeroCode fmtb false * 16)
  | [p] => some (p.2 + 4 * p.2 + 16 * p.1)
  | [p, q] => some (p.2 + 4 * q.2 + 16 * (p.1 + 2 ^ wB * q.1))
  | _ => none

/-- The bytes of one pass: rows of 256 codes. -/
def packPass (fmtb : Nat) (p24 : Bool) (rows : List (List Nat)) : Option Nat :=
  let wB := fmtWidth fmtb
  if p24 then
    let ents := (List.range (rows.length / 4)).flatMap fun u =>
      (List.range 256).map fun n => pruneGroup fmtb ((List.range 4).map fun v => (rows.getD (4 * u + v) []).getD n 0)
    if ents.any (·.isNone) then none
    else some ((ents.zipIdx).foldl (fun a p => a + p.1.getD 0 * 2 ^ ((2 * wB + 4) * p.2)) 0)
  else some ((rows.flatten.zipIdx).foldl (fun a p => a + p.1 * 2 ^ (wB * p.2)) 0)

/-- The `n` bits at bit `b` of the bat. -/
def Wheel.batBits (w : Wheel) (b n : Nat) : Nat :=
  bytesNum (w.bat.read (b / 8) (divUp (b % 8 + n) 8)) / 2 ^ (b % 8) % 2 ^ n

/-- The decoded value at row `k` and column `n` of a pass that begins at `slot`. A zero-tagged slot reads as +0 in every
position (09 R235), one that reaches into the slot among them (assumption 25). -/
def Wheel.bVal (w : Wheel) (slot fmtb : Nat) (p24 : Bool) (k n : Nat) : XV :=
  let wB := fmtWidth fmtb
  let ew := if p24 then 2 * wB + 4 else wB
  let pos := ew * (if p24 then k / 4 * 256 + n else k * 256 + n)
  if w.tag (slot + pos / 32768) = .zero ∨ w.tag (slot + (pos + ew - 1) / 32768) = .zero then .zero false
  else
    let e := w.batBits (slot * 32768 + pos) ew
    if p24 then
      let i0 := e % 4
      let i1 := e / 4 % 4
      if k % 4 = i0 then dec fmtb (e / 16 % 2 ^ wB)
      else if k % 4 = i1 then dec fmtb (e / 16 / 2 ^ wB)
      else .zero false
    else dec fmtb e

/-- MLDB (09 R231). -/
def wheelMldb (s : State) (who : Who) (clus : Nat) (f : WhF) (a b c : Word) : Except WFail (Flags × State) := do
  let fa := f.fmta.toNat
  let fb := f.fmtb.toNat
  let k := wheelK fa
  let spp := wheelSpp fa fb f.p24
  let (rows, s1) ← wchk (s.readView who a.toNat (layoutOf b) (fmtWidth fb) (k * opNp c) 256)
  let packs := (List.range (opNp c)).map fun p => packPass fb f.p24 ((rows.drop (k * p)).take k)
  if packs.any (·.isNone) then throw (.fault 4 0 false)
  let w := (packs.zipIdx).foldl
    (fun (w : Wheel) p =>
      let slot := opBslot c + p.2 * spp
      let w1 : Wheel := { w with bat := w.bat.write (4096 * slot) (natBytes (p.1.getD 0) (4096 * spp)) }
      (List.range spp).foldl (fun x i => x.setTag (slot + i) (.b fa fb f.p24 p.2)) w1) (s1.wheel clus)
  return (0, s1.setWheel clus w)

/-- The slots that hold a byte range of a spline image at `bslot`. -/
def imageSlots (bslot lo n : Nat) : List Nat :=
  (List.range ((lo + n - 1) / 4096 - lo / 4096 + 1)).map fun i => bslot + lo / 4096 + i

/-- MLDC (09 R232). -/
def wheelMldc (s : State) (who : Who) (clus : Nat) (f : WhF) (a c : Word) : Except WFail (Flags × State) := do
  let i0 := Nat.bits f.imm.toNat 4 0
  let ni := Nat.bits f.imm.toNat 12 8
  let (bs, s1) ← wchk (s.readRange who a.toNat (10240 * ni))
  let w := (imageSlots (opBslot c) (10240 * i0) (10240 * ni)).foldl
    (fun (w : Wheel) t =>
      if w.tag t = .spline then w
      else ({ w with bat := w.bat.write (4096 * t) (List.replicate 4096 0) } : Wheel).setTag t .spline) (s1.wheel clus)
  return (0, s1.setWheel clus { w with bat := w.bat.write (4096 * opBslot c + 10240 * i0) bs })

/-- MLDS (09 R234). -/
def wheelMlds (s : State) (who : Who) (clus : Nat) (f : WhF) (a c : Word) : Except WFail (Flags × State) := do
  let (bs, s1) ← wchk (s.readRange who a.toNat (f.imm.toNat % 65536 + 1))
  let w := s1.wheel clus
  return (0, s1.setWheel clus { w with rib := w.rib.write (opRib0 c) bs })

/-- One accumulation column of MMA (05 R127, 09 R236): the groups of one row of A against column `n`. -/
def mmaCell (w : Wheel) (f : WhF) (c : Word) (r n : Nat) (arow : List Nat) (acc0 : FX) : FX :=
  let fa := f.fmta.toNat
  let fb := f.fmtb.toNat
  let k := wheelK fa
  let spp := wheelSpp fa fb f.p24
  let g := wheelG fa fb
  let ng := k * opNp c / g
  (List.range ng).foldl
    (fun acc q =>
      let ab := (List.range g).map fun u =>
        let kk := q * g + u
        (dec fa (arow.getD kk 0), w.bVal (opBslot c + kk / k * spp) fb f.p24 (kk % k) n)
      let ea := if f.x.getLsbD 1 then (w.rib.get (opRib0 c + r * ng + q)).toNat else 127
      let eb := if f.x.getLsbD 0 then (w.rib.get (opRib1 c + 256 * q + n)).toNat else 127
      fxRound (XV.add 0 acc.1 (wheelGroup ab ea eb).1) (acc.2 ||| (XV.add 0 acc.1 (wheelGroup ab ea eb).1).2
        ||| (wheelGroup ab ea eb).2)) acc0

/-- The accumulator's start (05 R128): the saggar with ACC, otherwise −0. -/
def accStart (w : Wheel) (acc : Bool) (row col : Nat) : FX := if acc then fx (w.sagAt row col) else (.zero true, 0)

/-- Whether the slots of an MMA carry the tags it requires (09 R231). -/
def mmaTags (w : Wheel) (f : WhF) (c : Word) : Bool :=
  let fa := f.fmta.toNat
  let fb := f.fmtb.toNat
  let spp := wheelSpp fa fb f.p24
  (List.range (opNp c)).all fun p => (List.range spp).all fun i =>
    let t := w.tag (opBslot c + p * spp + i)
    t == .b fa fb f.p24 p || t == .zero

/-- The rows of an MMA's result in one Wheel (09 R236). -/
def mmaRows (w : Wheel) (f : WhF) (c : Word) (arows : List (List Nat)) : Wheel × Flags :=
  (arows.zipIdx).foldl
    (fun (p : Wheel × Flags) ar =>
      let res := (List.range 256).map fun n =>
        mmaCell p.1 f c ar.2 n ar.1 (accStart p.1 f.acc (opSrow c + ar.2) n)
      (p.1.setRow (opSrow c + ar.2) 0 (res.map FX.code), res.foldl (fun a x => a ||| x.2) p.2)) (w, 0)

/-- MMA (09 R236). -/
def wheelMma (s : State) (who : Who) (clus : Nat) (f : WhF) (a b c : Word) : Except WFail (Flags × State) := do
  if !mmaTags (s.wheel clus) f c then throw (.fault 5 0 false)
  let fa := f.fmta.toNat
  let (rows, s1) ← wchk (s.readView who a.toNat (layoutOf b) (fmtWidth fa) (opM c) (wheelK fa * opNp c))
  let (w, fl) := mmaRows (s1.wheel clus) f c rows
  return (fl, s1.setWheel clus w)

/-- The A rows of an MMAC, read when its first part starts (09 R237, 14 R347). -/
def mmacRows (s : State) (who : Who) (f : WhF) (a b c : Word) : Except WFail (List (List Nat) × State) :=
  let fa := f.fmta.toNat
  wchk (s.readView who a.toNat (layoutOf b) (fmtWidth fa) (opM c) (wheelK fa * opNp c))

/-- The part of an MMAC in one cluster: the A rows against the cluster's own bat, rib and saggar. -/
def mmacPart (f : WhF) (c : Word) (rows : List (List Nat)) (r : Flags × State) (clus : Nat) : Except WFail (Flags × State) := do
  if !mmaTags (r.2.wheel clus) f c then throw (.fault 5 0 false)
  let (w, fl) := mmaRows (r.2.wheel clus) f c rows
  return (r.1 ||| fl, r.2.setWheel clus w)

/-- The effect of an MMAC on its clusters. -/
def wheelMmac (s : State) (cluss : List Nat) (f : WhF) (c : Word) (rows : List (List Nat)) : Except WFail (Flags × State) :=
  cluss.foldlM (mmacPart f c rows) (0, s)

/-! Splines (09 R215, R238-R242). -/

/-- The BF16 code at a byte of the bat; a zero-tagged slot reads as zero codes. -/
def Wheel.batCode (w : Wheel) (byte : Nat) : Nat := if w.tag (byte / 4096) = .zero then 0 else w.bat.num byte 2

/-- The cell of input `i` and output `j` of the image at `bslot`. -/
def Wheel.cell (w : Wheel) (bslot i j : Nat) : Cell :=
  let b := 4096 * bslot + 40 * (256 * i + j)
  { coef := fun k => fxB (w.batCode (b + 2 * k)), wb := fxB (w.batCode (b + 38)) }

/-- The inputs of a mask, ascending. -/
def maskInputs (mask : Nat) : List Nat := (List.range 24).filter fun i => mask.testBit i

/-- Causes 2 and 5 of a spline command. -/
def splineReady (w : Wheel) (bslot : Nat) (ins : List Nat) : Except WFail Unit :=
  if ins.any fun i => (knotOf (w.knot i)).g == 0 then .error (.fault 2 0 false)
  else if (List.range 60).all fun t => w.tag (bslot + t) == .spline || w.tag (bslot + t) == .zero then .ok ()
  else .error (.fault 5 0 false)

/-- The rows of X: the masked inputs of `m` samples as FP32 codes by input. -/
def readX (s : State) (who : Who) (a m : Nat) (ins : List Nat) : Except WFail (List (Map Nat) × State) :=
  (List.range m).foldlM
    (fun acc r => do
      let (row, s1) ← ins.foldlM
        (fun (p : Map Nat × State) i => do
          let (bs, s2) ← wchk (p.2.readRange who (a + 96 * r + 4 * i) 4)
          return (p.1.set i (bytesNum bs), s2)) ([], acc.2)
      return (acc.1 ++ [row], s1)) ([], s)

/-- The rows of g. -/
def readG (s : State) (who : Who) (b m : Nat) : Except WFail (List (List Nat) × State) :=
  (List.range m).foldlM
    (fun acc r => do
      let (bs, s1) ← wchk (acc.2.readRange who (b + 1024 * r) 1024)
      return (acc.1 ++ [(List.range 256).map fun j => bytesNum ((bs.drop (4 * j)).take 4)], s1)) ([], s)

/-- MSPL (09 R239). -/
def wheelMspl (s : State) (who : Who) (clus : Nat) (f : WhF) (a c : Word) : Except WFail (Flags × State) := do
  let ins := maskInputs f.imm.toNat
  splineReady (s.wheel clus) (opBslot c) ins
  let (xs, s1) ← readX s who a.toNat (opM c) ins
  let (w, fl) := (xs.zipIdx).foldl
    (fun (p : Wheel × Flags) xr =>
      let res := (List.range 256).map fun j =>
        ins.foldl
          (fun (acc : FX) i =>
            acc.add (splineCell (fx (xr.1.getD i 0)) (knotOf (p.1.knot i)) (p.1.cell (opBslot c) i j)))
          (accStart p.1 f.acc (opSrow c + xr.2) j)
      (p.1.setRow (opSrow c + xr.2) 0 (res.map FX.code), res.foldl (fun a x => a ||| x.2) p.2)) (s1.wheel clus, 0)
  return (fl, s1.setWheel clus w)

/-- MSDX (09 R241). -/
def wheelMsdx (s : State) (who : Who) (clus : Nat) (f : WhF) (a b c : Word) : Except WFail (Flags × State) := do
  let ins := maskInputs f.imm.toNat
  splineReady (s.wheel clus) (opBslot c) ins
  let (xs, s1) ← readX s who a.toNat (opM c) ins
  let (gs, s2) ← readG s1 who b.toNat (opM c)
  let (w, fl) := (xs.zip gs).zipIdx.foldl
    (fun (p : Wheel × Flags) xr =>
      ins.foldl
        (fun (q : Wheel × Flags) i =>
          let dx := (xr.1.2.zipIdx).foldl
            (fun (acc : FX) gj =>
              acc.add ((fx gj.1).mul
                (splineFprime (fx (xr.1.1.getD i 0)) (knotOf (q.1.knot i)) (q.1.cell (opBslot c) i gj.2))))
            (XV.zero true, 0)
          let y := if f.acc then (fx (q.1.sagAt (opSrow c + xr.2) i)).add dx else dx
          (q.1.setSag (opSrow c + xr.2) i y.code, q.2 ||| y.2)) p) (s2.wheel clus, 0)
  return (fl, s2.setWheel clus w)

/-- The updates of MSGRAD for one sample, input and output (05 R133). -/
def gradCell (w : Wheel) (base i j : Nat) (x gr : FX) : Wheel × Flags :=
  let gw := gradWeights x (knotOf (w.knot i))
  let (w1, fl) := (gw.2.1.zipIdx).foldl
    (fun (p : Wheel × Flags) wk =>
      let y := (fx (p.1.sagAt (base + gw.1 + wk.2) j)).add (gr.mul wk.1)
      (p.1.setSag (base + gw.1 + wk.2) j y.code, p.2 ||| y.2)) (w, gw.2.2)
  let y := (fx (w1.sagAt (base + 19) j)).add (gr.mul x)
  (w1.setSag (base + 19) j y.code, fl ||| y.2)

/-- MSGRAD (09 R240). -/
def wheelMsgrad (s : State) (who : Who) (clus : Nat) (f : WhF) (a b c : Word) : Except WFail (Flags × State) := do
  let ins := maskInputs f.imm.toNat
  splineReady (s.wheel clus) (opBslot c) ins
  let (xs, s1) ← readX s who a.toNat (opM c) ins
  let (gs, s2) ← readG s1 who b.toNat (opM c)
  let w0 := s2.wheel clus
  let w1 := if f.acc then w0 else
    ins.foldl (fun w i => (List.range 20).foldl
      (fun x k => x.setRow (opSrow c + 20 * i + k) 0 (List.replicate 256 0x80000000)) w) w0
  let (w, fl) := (xs.zip gs).foldl
    (fun (p : Wheel × Flags) xg =>
      ins.foldl
        (fun (q : Wheel × Flags) i =>
          (xg.2.zipIdx).foldl
            (fun (r : Wheel × Flags) gj =>
              let (w2, f2) := gradCell r.1 (opSrow c + 20 * i) i gj.2 (fx (xg.1.getD i 0)) (fx gj.1)
              (w2, r.2 ||| f2)) q) p) (w1, 0)
  return (fl, s2.setWheel clus w)

/-- MREFINE (09 R242, 05 R135). -/
def wheelMrefine (s : State) (clus : Nat) (f : WhF) (c : Word) : Except WFail (Flags × State) := do
  let w := s.wheel clus
  let i := f.x.toNat % 32
  let kn := knotOf (w.knot i)
  if kn.g = 0 then throw (.fault 2 0 false)
  let big := match kn.invh.1 with
    | .fin q => decide (pow2 127 ≤ q)
    | _ => true
  if 8 < kn.g || big then throw (.fault 3 0 false)
  let slots := imageSlots (opBslot c) (10240 * i) 10240
  if !(slots.all fun t => w.tag t == .spline || w.tag t == .zero) then throw (.fault 5 0 false)
  let news := (List.range 256).flatMap fun j =>
    (refineTerms kn.g kn.deg).map fun t =>
      (4096 * opBslot c + 40 * (256 * i + j) + 2 * t.1, refineCoef (w.cell (opBslot c) i j).coef t.2.1 t.2.2)
  let w1 := slots.foldl
    (fun (x : Wheel) t =>
      (if x.tag t = .zero then { x with bat := x.bat.write (4096 * t) (List.replicate 4096 0) } else x).setTag t
        .spline) w
  let w2 : Wheel := { w1 with bat := news.foldl (fun m p => m.write p.1 (natBytes p.2.1 2)) w1.bat }
  let inv2 := (FX.add kn.invh kn.invh).code
  let k := (w.knot i).toNat
  let k2 := k % 2 ^ 32 + inv2 * 2 ^ 32 + 2 * kn.g * 2 ^ 64 + k / 2 ^ 72 * 2 ^ 72
  return (news.foldl (fun a p => a ||| p.2.2) 0, s.setWheel clus (w2.setKnot i (BitVec.ofNat 128 k2)))

/-! MZERO, MKNOT (09 R233, R235). -/

def wheelZeroSag (s : State) (clus : Nat) (c : Word) : State :=
  s.setWheel clus ((List.range (opM c)).foldl (fun w r => w.setRow (opSrow c + r) 0 (List.replicate 256 0)) (s.wheel clus))

def wheelZeroBat (s : State) (clus : Nat) (f : WhF) (c : Word) : State :=
  s.setWheel clus ((List.range (f.imm.toNat % 128)).foldl (fun w i => w.setTag (opBslot c + i) .zero) (s.wheel clus))

def wheelZeroRib (s : State) (clus : Nat) (f : WhF) (c : Word) : State :=
  let w := s.wheel clus
  s.setWheel clus { w with rib := w.rib.write (opRib0 c) (List.replicate (f.imm.toNat % 65536 + 1) 0) }

def wheelMknot (s : State) (clus : Nat) (f : WhF) (a b : Word) : State :=
  s.setWheel clus ((s.wheel clus).setKnot (f.x.toNat % 32) (b ++ a))

/-! MRD, MWR (09 R243, R244). -/

/-- COL0 and NCOL of MRD and MWR. -/
def mrdCol0 (f : WhF) : Nat := Nat.bits f.imm.toNat 7 0
def mrdNcol (f : WhF) : Nat := Nat.bits f.imm.toNat 16 8

/-- The memory dither index of an element (05 R118). -/
def memDither (bit w : Nat) : Nat := if 8 ≤ w then bit / 8 / (w / 8) % 4096 else bit / w % 4096

/-- The elements of an MRD: bit address, code and flags. -/
def mrdElems (w : Wheel) (f : WhF) (a b c : Word) : List (Nat × Nat × Flags) :=
  let fa := f.fmta.toNat
  let wd := fmtWidth fa
  (List.range (opM c)).flatMap fun r => (List.range (mrdNcol f)).map fun j =>
    let v := fx (w.sagAt (opSrow c + r) (mrdCol0 f + j))
    let v' := if f.x.getLsbD 0 then v.mul (fx (w.rib.num (opRib0 c + 4 * (mrdCol0 f + j)) 4)) else v
    let bit := layoutBit a.toNat (layoutOf b) wd r j
    let (code, fl) := roundFmt v'.1 fa (f.x.toNat / 2 % 8) (memDither bit wd) true (f.x.getLsbD 4)
    (bit, code, fl ||| v'.2)

/-- MRD: on a fault the elements already written are a free subset of those whose checks pass (assumption 8). The state beside
the failure is the one it leaves. -/
def wheelMrd (s : State) (who : Who) (clus : Nat) (f : WhF) (a b c : Word) : Except (WFail × State) (Flags × State) :=
  let wd := fmtWidth f.fmta.toNat
  let es := mrdElems (s.wheel clus) f a b c
  let put := fun (st : State) (e : Nat × Nat × Flags) l => st.putBits who l e.1 wd e.2.1
  match wchk (es.mapM fun e => s.placeBits who e.1 wd) with
  | .ok ls => .ok (es.foldl (fun x e => x ||| e.2.2) 0, (es.zip ls).foldl (fun st p => put st p.1 p.2) s)
  | .error (.wait k) => .error (.wait k, s)
  | .error x =>
    .error (x, ((es.zipIdx).foldl (fun st e =>
      match s.placeBits who e.1.1 wd with
      | .ok l => if Config.mrdWrote s.fresh e.2 then put st e.1 l else st
      | .error _ => st) s).free.2)

/-- MWR. -/
def wheelMwr (s : State) (who : Who) (clus : Nat) (f : WhF) (a b c : Word) : Except WFail (Flags × State) := do
  let fa := f.fmta.toNat
  let (rows, s1) ← wchk (s.readView who a.toNat (layoutOf b) (fmtWidth fa) (opM c) (mrdNcol f))
  let (w, fl) := (rows.zipIdx).foldl
    (fun (p : Wheel × Flags) row =>
      let res := (row.1.zipIdx).map fun e =>
        let v : FX := (dec fa e.1, (dec fa e.1).sigFlags)
        if f.acc then (fx (p.1.sagAt (opSrow c + row.2) (mrdCol0 f + e.2))).add v else v
      (p.1.setRow (opSrow c + row.2) (mrdCol0 f) (res.map FX.code), res.foldl (fun a x => a ||| x.2) p.2))
    (s1.wheel clus, 0)
  return (fl, s1.setWheel clus w)

/-! Queues and registers (09 R219, R223, R225). -/

/-- The mnemonic's opcode (04 R105). -/
def wheelOpc : Instr → Nat
  | .mldb _ => 0x800
  | .mldc _ => 0x801
  | .mknot _ => 0x802
  | .mlds _ => 0x803
  | .mma _ => 0x840
  | .mmac _ => 0x841
  | .mspl _ => 0x842
  | .msdx _ => 0x880
  | .msgrad _ => 0x881
  | .mrefine _ => 0x882
  | .mzeroSag _ => 0x883
  | .mzeroBat _ => 0x883
  | .mzeroRib _ => 0x883
  | .mrd _ => 0x8C0
  | .mwr _ => 0x8C1
  | .mstat _ => 0x8C3
  | _ => 0

/-- Array commands (14 R342). -/
def wheelArray : Instr → Bool
  | .mma _ | .mmac _ | .mspl _ | .msdx _ | .msgrad _ | .mrefine _ => true
  | _ => false

/-- Heavy commands (09 R238). -/
def WCmd.heavy (c : WCmd) : Bool :=
  match c.ins with
  | .mmac _ => true
  | .mma _ | .mspl _ => decide (256 ≤ opM c.c)
  | _ => false

def Wheel.queue (w : Wheel) (q : Nat) : List WCmd := w.queues.getD q []
def Wheel.setQueue (w : Wheel) (q : Nat) (l : List WCmd) : Wheel :=
  { w with queues := if l.isEmpty then w.queues.del q else w.queues.set q l }

/-- WQSTAT of a task as it stands (09 R225). -/
def State.wqstat (s : State) (t : Nat) : Word :=
  let x := s.task t
  let w := s.wheel (clusOf x.tile)
  let own := ((w.queue (ticOf x.tile)).filter fun c => c.task == t).length
  let coop := ((w.queue 8).filter fun c => c.task == t).length
  BitVec.ofNat 64 (own + coop * 256 + (if x.fpend.isEmpty then 0 else 65536))

/-- The record of MSTAT (09 R245). -/
def State.mstatRecord (s : State) (t : Nat) : List Byte :=
  let x := s.task t
  natBytes s.cycle.toNat 8 ++ natBytes x.wdone.toNat 8 ++ natBytes x.wdamp.toNat 8 ++ natBytes (s.wqstat t).toNat 8
    ++ List.replicate 32 0

/-- The clusters of a router (01 R15, 09 R237). -/
def routerClus (clus : Nat) : List Nat := (List.range 4).map fun i => clus / 4 * 4 + i

/-- The party of a command's accesses (09 R221): its task, judged by what happened before its issue. -/
def State.whoCmd (s : State) (c : WCmd) : Who :=
  { dom := c.dom, tile := c.tile, party := c.party, clk := c.clk, member := s.memberOf (s.task c.task)
    rd := some (.wheel c.clus c.id) }

/-- The clusters in whose queues a command stands: an MMAC's stands in queue 8 of the four of its router (09 R237). -/
def WCmd.cluss (c : WCmd) : List Nat :=
  match c.ins with
  | .mmac _ => routerClus c.clus
  | _ => [c.clus]

/-- The whole effect of a command that runs in cluster `clus`, with its flags (09 R223). A failure carries the state that it
leaves. -/
def wheelRun (s : State) (clus : Nat) (c : WCmd) : Except (WFail × State) (Flags × State) :=
  let who := s.whoCmd c
  let up : Except WFail (Flags × State) → Except (WFail × State) (Flags × State) := fun r => r.mapError (·, s)
  match c.ins with
  | .mldb f => up (wheelMldb s who clus f c.a c.b c.c)
  | .mldc f => up (wheelMldc s who clus f c.a c.c)
  | .mknot f => .ok (0, wheelMknot s clus f c.a c.b)
  | .mlds f => up (wheelMlds s who clus f c.a c.c)
  | .mma f => up (wheelMma s who clus f c.a c.b c.c)
  | .mmac f => up (wheelMmac s c.cluss f c.c (c.rows.getD []))
  | .mspl f => up (wheelMspl s who clus f c.a c.c)
  | .msdx f => up (wheelMsdx s who clus f c.a c.b c.c)
  | .msgrad f => up (wheelMsgrad s who clus f c.a c.b c.c)
  | .mrefine f => up (wheelMrefine s clus f c.c)
  | .mzeroSag _ => .ok (0, wheelZeroSag s clus c.c)
  | .mzeroBat f => .ok (0, wheelZeroBat s clus f c.c)
  | .mzeroRib f => .ok (0, wheelZeroRib s clus f c.c)
  | .mrd f => wheelMrd s who clus f c.a c.b c.c
  | .mwr f => up (wheelMwr s who clus f c.a c.b c.c)
  | .mstat _ => up (do return (0, ← wchk (s.writeRange who c.a.toNat (s.mstatRecord c.task))))
  | _ => .ok (0, s)

/-! Poisoned words of the Wheel's memories (23 R431; assumption 94). -/

/-- Columns `c0` to `c0 + n - 1` of rows of the saggar, as bytes. -/
def sagRange (row m c0 n : Nat) : List (Nat × Nat × Nat) := (List.range m).map fun r => (2, 1024 * (row + r) + 4 * c0, 4 * n)

/-- What a command reads of the bat, the rib and the saggar: memory, first byte and bytes. -/
def WCmd.reads (c : WCmd) : List (Nat × Nat × Nat) :=
  let bat := fun n => (0, 4096 * opBslot c.c, n)
  let acc := fun (f : WhF) l => if f.acc then l else []
  let mma := fun (f : WhF) =>
    let fa := f.fmta.toNat
    let fb := f.fmtb.toNat
    let ng := wheelK fa * opNp c.c / wheelG fa fb
    bat (4096 * opNp c.c * wheelSpp fa fb f.p24) :: (if f.x.getLsbD 1 then [(1, opRib0 c.c, opM c.c * ng)] else [])
      ++ (if f.x.getLsbD 0 then [(1, opRib1 c.c, 256 * ng)] else []) ++ acc f (sagRange (opSrow c.c) (opM c.c) 0 256)
  match c.ins with
  | .mma f => mma f
  | .mmac f => mma f
  | .mspl f => bat (60 * 4096) :: acc f (sagRange (opSrow c.c) (opM c.c) 0 256)
  | .msdx f => bat (60 * 4096) :: acc f (sagRange (opSrow c.c) (opM c.c) 0 24)
  | .msgrad f => bat (60 * 4096) :: acc f ((maskInputs f.imm.toNat).flatMap fun i => sagRange (opSrow c.c + 20 * i) 20 0 256)
  | .mrefine f => [(0, 4096 * opBslot c.c + 10240 * (f.x.toNat % 32), 10240)]
  | .mrd f => sagRange (opSrow c.c) (opM c.c) (mrdCol0 f) (mrdNcol f)
      ++ if f.x.getLsbD 0 then [(1, opRib0 c.c + 4 * mrdCol0 f, 4 * mrdNcol f)] else []
  | .mwr f => acc f (sagRange (opSrow c.c) (opM c.c) (mrdCol0 f) (mrdNcol f))
  | _ => []

/-- What a command overwrites whole. -/
def WCmd.overwrites (c : WCmd) : List (Nat × Nat × Nat) :=
  let rows := sagRange (opSrow c.c) (opM c.c) 0 256
  match c.ins with
  | .mldb f => [(0, 4096 * opBslot c.c, 4096 * opNp c.c * wheelSpp f.fmta.toNat f.fmtb.toNat f.p24)]
  | .mldc f => [(0, 4096 * opBslot c.c + 10240 * Nat.bits f.imm.toNat 4 0, 10240 * Nat.bits f.imm.toNat 12 8)]
  | .mlds f => [(1, opRib0 c.c, f.imm.toNat % 65536 + 1)]
  | .mzeroRib f => [(1, opRib0 c.c, f.imm.toNat % 65536 + 1)]
  | .mma _ => rows
  | .mmac _ => rows
  | .mspl _ => rows
  | .mzeroSag _ => rows
  | .msgrad f => (maskInputs f.imm.toNat).flatMap fun i => sagRange (opSrow c.c + 20 * i) 20 0 256
  | .mwr f => sagRange (opSrow c.c) (opM c.c) (mrdCol0 f) (mrdNcol f)
  | _ => []

/-- A command reads a poisoned word. A zero-tagged slot is not read (09 R235). -/
def Wheel.readsBad (w : Wheel) (c : WCmd) : Bool :=
  w.bad.any fun b => c.reads.any fun r =>
    r.1 == b.1 && decide (r.2.1 < 8 * b.2 + 8) && decide (8 * b.2 < r.2.1 + r.2.2) && !(b.1 == 0 && w.tag (b.2 / 512) == .zero)

/-- Words wholly overwritten lose their poison. -/
def Wheel.unpoison (w : Wheel) (l : List (Nat × Nat × Nat)) : Wheel :=
  if w.bad.isEmpty then w
  else { w with bad := w.bad.filter fun b => !l.any fun r =>
    r.1 == b.1 && decide (r.2.1 ≤ 8 * b.2) && decide (8 * b.2 + 8 ≤ r.2.1 + r.2.2) }

/-- The whole effect of a command on the clusters where it runs, and on the poison of the words that it reads and overwrites. -/
def wheelEffect (s : State) (clus : Nat) (c : WCmd) : Except (WFail × State) (Flags × State) :=
  let ks := c.cluss
  if ks.any fun k => (s.wheel k).readsBad c then .error (.machine, s)
  else (wheelRun s clus c).map fun r => (r.1, ks.foldl (fun st k => st.setWheel k ((st.wheel k).unpoison c.overwrites)) r.2)

end Sys2Proof.Machine
end

