-- ==== Sys2Proof/Machine/WheelQueue.lean ====
section
/-! DEFINITION. The Wheel's queues, arbiter and damper (09 R219, R222-R226; 14 R342-R346), and the save and restore of
a task's Wheel state (09 R226). -/

namespace Sys2Proof.Machine

open Sys2Proof

def cWheel : Nat := 0x20
def cWheelOperand : Nat := 0x17

/-- The depth of a command queue (09 R225: OWNQ and COOPQ reach 16). -/
def wheelDepth : Nat := 16

/-! Leave (14 R344). -/

/-- Adds a request to a damper's queue: a Wheel request goes before copy requests of the same ck. -/
def askDamper (q : List (Bool × Nat × Word)) (wheel : Bool) (id : Nat) (now : Word) : List (Bool × Nat × Word) :=
  if wheel then
    let later := (q.reverse.takeWhile fun r => !r.1 && r.2.2 == now).length
    q.take (q.length - later) ++ [(true, id, now)] ++ q.drop (q.length - later)
  else q ++ [(false, id, now)]

/-- Changes a command in a cluster's queue. -/
def State.updCmd (s : State) (clus id : Nat) (f : WCmd → WCmd) : State :=
  let w := s.wheel clus
  s.setWheel clus { w with queues := w.queues.mapVal fun l => updWhere l (fun c => c.id == id) f }

/-- Changes a command wherever it stands. -/
def State.updAll (s : State) (c : WCmd) (f : WCmd → WCmd) : State := c.cluss.foldl (fun st x => st.updCmd x c.id f) s

/-- The head of queue `q` in a cluster: the oldest command that has not completed there. -/
def Wheel.head (w : Wheel) (clus q : Nat) : Option WCmd := (w.queue q).find? fun c => c.parts.contains clus

/-- Whether a command runs in a cluster. -/
def WCmd.runs (c : WCmd) (clus : Nat) : Bool := c.parts.contains clus && c.begun.contains clus

/-- The head of queue `q` asks for leave when it is heavy and has not asked (14 R342, R344). An MMAC asks its four
dampers together, when it heads the four queues. -/
def State.askHead (s : State) (clus q : Nat) : State :=
  let w := s.wheel clus
  match w.head clus q with
  | none => s
  | some c =>
    let cs := c.cluss
    if c.heavy && c.asked.isNone && !c.begun.contains clus && !w.stopped.contains q
        && cs.all fun x => ((s.wheel x).head x q).map (·.id) == some c.id then
      cs.foldl (fun st x =>
        (st.updCmd x c.id fun d => { d with asked := some s.cycle }).updClus x fun k =>
          { k with damperQ := askDamper k.damperQ true c.id s.cycle }) s
    else s

def State.askHeads (s : State) (clus : Nat) : State := (List.range 9).foldl (fun st q => st.askHead clus q) s

/-- A command gives back its leave or its request. -/
def State.dropLeave (s : State) (clus : Nat) (wheel : Bool) (id : Nat) : State :=
  s.updClus clus fun k =>
    { k with leaves := k.leaves.filter fun l => l != (wheel, id)
             damperQ := k.damperQ.filter fun r => !(r.1 == wheel && r.2.1 == id) }

/-- DAMPCTL (14 R346). -/
def Die.lim (d : Die) : Nat := Word.bits d.dampctl 22 16
def Die.gap (d : Die) : Nat := Word.bits d.dampctl 11 0

/-- Heavy operations that hold leave on a die; an MMAC, reserved at up to four dampers, is one. -/
def State.holders (s : State) (die : Nat) : Nat :=
  ((s.cluss.filter fun p => dieOfClus p.1 == die).flatMap fun p => p.2.leaves).eraseDups.length

/-- Whether an operation may hold leave: it holds some of its reservations already, or there are fewer than LIM others. -/
def State.leaveFree (s : State) (die : Nat) (op : Bool × Nat) : Bool :=
  ((s.cluss.filter fun p => dieOfClus p.1 == die).any fun p => p.2.leaves.contains op)
    || decide (s.holders die < (s.die die).lim)

/-- A damper grants its oldest request, none while capping is active (14 R344, 23 R429). -/
def State.damperGrant (s : State) (clus : Nat) : State :=
  let k := s.clus clus
  let d := s.die (dieOfClus clus)
  match k.damperQ with
  | [] => s
  | (wheel, id, _) :: rest =>
    let gapOk := match k.lastGrant with
      | none => true
      | some g => decide (d.gap ≤ (s.cycle - g).toNat)
    if gapOk && !s.capping && s.leaveFree (dieOfClus clus) (wheel, id) then
      let s1 := s.setClus clus { k with damperQ := rest, lastGrant := some s.cycle, leaves := k.leaves ++ [(wheel, id)] }
      if wheel then
        s1.updCmd clus id fun c => { c with granted := true, damp := (s.cycle - c.asked.getD s.cycle).toNat }
      else
        s1.updClus clus fun x => { x with copies := updWhere x.copies (fun c => c.id == id) fun c => { c with granted := true } }
    else s

/-! The arbiter (14 R342, R343). -/

/-- A ready head: its resource is free, its queue is not stopped, its leave is granted by every damper. -/
def State.readyHead (s : State) (clus q : Nat) : Bool :=
  let w := s.wheel clus
  match w.head clus q with
  | none => false
  | some c =>
    !w.stopped.contains q && !c.begun.contains clus
      && (if wheelArray c.ins then w.runArray.isNone else w.runPort.isNone)
      && (!c.heavy || c.cluss.all fun x =>
            ((s.wheel x).queues.any fun p => p.2.any fun d => d.id == c.id && d.granted))

/-- A queue's weight in a value of WHEELWT (09 R225). -/
def weightIn (wt : Word) (q : Nat) : Nat := Word.bits wt (4 * q + 3) (4 * q)

/-- The weight of a queue in the current round: a write of WHEELWT takes effect at the next one (14 R343). -/
def Wheel.weight (w : Wheel) (q : Nat) : Nat := weightIn w.wtNow q

/-- The credit of a queue; it begins at its weight at reset (14 R343). -/
def Wheel.creditOf (w : Wheel) (q : Nat) : Nat := w.credit.getD q 1

/-- The queues in ascending cyclic order after the one last served. -/
def cyclicAfter (n last : Nat) : List Nat := (List.range n).map fun i => (last + 1 + i) % n

/-- wheel_pick (14 R343): the queue that starts, with the credits and the last one served. -/
def State.wheelPick (s : State) (clus : Nat) : Option (Nat × Wheel) :=
  let w := s.wheel clus
  let ready := (cyclicAfter 9 w.last).filter (s.readyHead clus)
  let served := fun (x : Wheel) q => (q, { x with credit := x.credit.set q (x.creditOf q - 1), last := q })
  match ready.find? fun q => decide (0 < w.weight q) && decide (0 < w.creditOf q) with
  | some q => some (served w q)
  | none =>
    match ready.find? fun q => decide (0 < weightIn w.wt q) with
    | some q => some (served { w with wtNow := w.wt, credit := (List.range 9).map fun i => (i, weightIn w.wt i) } q)
    | none => (ready.head?).map fun q => (q, w)

/-- A command holds the array, or the port, of its cluster no more. -/
def Wheel.freeRun (w : Wheel) (clus id : Nat) : Wheel :=
  let keep := fun (r : Option Nat) => r.filter fun q => (w.head clus q).all fun c => c.id != id
  { w with runArray := keep w.runArray, runPort := keep w.runPort }

/-- Takes a command out of every queue that holds it, with its leave. -/
def State.removeCmd (s : State) (c : WCmd) : State :=
  c.cluss.foldl (fun st x =>
    let w := (st.wheel x).freeRun x c.id
    (st.setWheel x { w with queues := (w.queues.mapVal fun l => l.filter fun d => d.id != c.id).filter fun p => !p.2.isEmpty
      }).dropLeave x true c.id)
    (s.unparkRead (.wheel c.clus c.id))

/-- The group of a uni command ends its wait (09 R227). -/
def State.finishUniCmd (s : State) (clus id : Nat) : State :=
  match (s.clus clus).ugroups.find? fun g => g.cmd == some id with
  | none => s
  | some g =>
    (s.updClus clus fun k =>
      { k with ugroups := updWhere k.ugroups (fun x => x.cmd == some id) fun x => { x with cmd := none, done := true } }).wake
      g.exec 4 0

/-- A Wheel-command fault (09 R223): the command has had no effect on the Wheel and will run from its start. A command whose
task has ended is taken away. -/
def State.wheelFault (s : State) (q : Nat) (c : WCmd) (cause : Nat) (addr : Word) (wr pw : Bool) : State :=
  if (s.task? c.task).isNone then s.removeCmd c
  else
    let s1 := c.cluss.foldl (fun st x =>
      let w := (st.wheel x).freeRun x c.id
      ((st.setWheel x { w with stopped := insertNat w.stopped q }).dropLeave x true c.id).updCmd x c.id
        fun d => { d with asked := none, granted := false, parts := c.cluss, begun := [], flags := 0, rows := none, snap := none })
      (s.unparkRead (.wheel c.clus c.id))
    s1.updTask c.task fun t =>
      { t with
        fpend := insertNat t.fpend q
        wstop := insertNat t.wstop q
        werr := BitVec.ofNat 64 (cause * 65536 + wheelOpc c.ins)
        pend := t.pend ++ [{ code := cWheel, detail := cause, addr := addr, w := wr, pw := pw
                             info := BitVec.ofNat 32 (wheelOpc c.ins), ref := q }] }

/-- A command has read a poisoned word of the Wheel: it is given up without effect, and its task takes a memory machine check at
its next bundle (23 R431; assumption 94). -/
def State.wheelMachine (s : State) (c : WCmd) : State :=
  ((s.removeCmd c).finishUniCmd c.clus c.id).updTask c.task fun t =>
    { t with pend := t.pend ++ [{ code := cMemCheck, detail := 0, addr := 0, w := false, info := BitVec.ofNat 32 (wheelOpc c.ins), ref := 0 }] }

/-- The first part of an MMAC reads the A rows (14 R347). -/
def State.readRows (s : State) (c : WCmd) : Except (WFail × State) (WCmd × State) :=
  match c.ins with
  | .mmac f =>
    match c.rows with
    | some _ => .ok (c, s)
    | none =>
      match mmacRows s (s.whoCmd c) f c.a c.b c.c with
      | .ok (r, s1) => .ok ({ c with rows := some r }, s1)
      | .error x => .error (x, s)
  | _ => .ok (c, s)

/-- Whether a command's effects may come at its end: those that write no memory (15 R359). -/
def WCmd.mayBeLate (c : WCmd) : Bool :=
  match c.ins with
  | .mrd _ | .mstat _ | .mmac _ => false
  | _ => true

/-- A command, or the part of an MMAC in cluster `clus`, starts: its effects take place whole, or with `late` only its
memory reads (assumption 24). An MMAC's take place when its last part has started (assumption 102). -/
def State.startCmd (s : State) (clus : Nat) (c0 : WCmd) (late : Bool) : Except (WFail × State) State := do
  let (c, s1) ← s.readRows c0
  let begun := insertNat c.begun clus
  let (fl, s2) ← if c.cluss.all begun.contains then wheelEffect s1 clus c else .ok (0, s1)
  let w := s.wheel clus
  let begin' := fun (d : WCmd) => { d with begun := begun, rows := c.rows }
  let s3 := if late && c.mayBeLate then
      (s2.setWheel clus w).updAll c fun d =>
        { begin' d with snap := some { mem := s.mem, tags := w.tags, bat := w.bat, rib := w.rib, kn := w.kn } }
    else s2.updAll c fun d => { begin' d with flags := d.flags ||| fl }
  return s3.servedDone (.wheel c.clus c.id) c.clk

/-! What a command sees whose effects come at its end (09 R220): of every slot, unit and knot register, or of every input with its
cells, either what it was at the command's start or what it is at its end (`Config.seesNew`; assumption 24). -/

/-- Slots and units, each whole. -/
def WSnap.mixSlots (o : WSnap) (w : Wheel) (n : Nat) : Wheel :=
  let w1 := (List.range 64).foldl (fun (x : Wheel) t =>
    if Config.seesNew n t then x
    else ({ x with bat := x.bat.write (4096 * t) (o.bat.read (4096 * t) 4096) } : Wheel).setTag t (o.tags.getD t .empty)) w
  (List.range 1024).foldl (fun (x : Wheel) u =>
    if Config.seesNew n (64 + u) then x else { x with rib := x.rib.write (64 * u) (o.rib.read (64 * u) 64) }) w1

/-- A slot of a spline image as `n` bytes of codes: zero codes where it is zero-tagged (09 R239). -/
def imageBytes (tags : Map Tag) (bat : Mem) (lo n : Nat) : List Byte :=
  (List.range n).map fun i => if tags.getD ((lo + i) / 4096) .empty = .zero then 0 else bat.get (lo + i)

/-- The inputs of the image at `bslot`, each with its knot register and its cells. A slot keeps a tag that is neither spline nor
zero where an input sees it so. -/
def WSnap.mixInputs (o : WSnap) (w : Wheel) (bslot n : Nat) : Wheel :=
  (List.range 24).foldl (fun (x : Wheel) i =>
    let lo := 4096 * bslot + 10240 * i
    let new := Config.seesNew n i
    let tags := if new then w.tags else o.tags
    let y := x.setKnot i ((if new then w.kn else o.kn).getD i 0)
    let z : Wheel := { y with bat := y.bat.write lo (imageBytes tags (if new then w.bat else o.bat) lo 10240) }
    (imageSlots bslot (10240 * i) 10240).foldl (fun v t =>
      match tags.getD t .empty with
      | .spline | .zero => if v.tag t = .zero then v.setTag t .spline else v
      | bad => v.setTag t bad) z)
    ((List.range 60).foldl (fun (x : Wheel) t => x.setTag (bslot + t) .zero) w)

/-- The Wheel that command `c` sees at its end. -/
def WSnap.mix (o : WSnap) (w : Wheel) (c : WCmd) (n : Nat) : Wheel :=
  match c.ins with
  | .mma _ => o.mixSlots w n
  | .mspl _ | .msdx _ | .msgrad _ => o.mixInputs w (opBslot c.c) n
  | _ => w

/-- The Wheel as a command that started late leaves it, computed from the memory it read. Those that see a mixture write the
saggar alone. -/
def State.lateEffect (s : State) (clus : Nat) (c : WCmd) (o : WSnap) : Except (WFail × State) (Flags × Wheel) :=
  let w := s.wheel clus
  let m := o.mix w c s.fresh
  let bare : State := { s with mem := o.mem, wit := [], dir := [], poison := [], lost := [], foldstat := 0, compacts := []
                               parked := [], lockWaits := [], shadow := none }
  (wheelEffect (bare.setWheel clus m) clus c).map fun r =>
    let x := r.2.wheel clus
    (r.1, if m = w then x else { w with sag := x.sag, bad := x.bad })

/-- A head whose access must wait stands at the line's home. -/
def State.holdCmd (s : State) (c : WCmd) (k : Chk) : State :=
  match k with
  | .park comp line => s.parkAt (.wheel c.clus c.id) comp line
  | .locked line => s.queueAt line (.party c.party)
  | _ => s

/-- The command that has been given the array or the port starts; where its access must wait, it holds them until it can. -/
def State.startHead (s : State) (clus : Nat) (late : Bool) (q : Nat) : State :=
  match (s.wheel clus).head clus q with
  | none => s
  | some c =>
    if c.begun.contains clus then s
    else
      match s.startCmd clus c late with
      | .ok s1 => s1
      | .error (.wait k, _) => s.holdCmd c k
      | .error (.machine, _) => s.wheelMachine c
      | .error (.fault cause addr wr pw, s1) => s1.wheelFault q c cause addr wr pw

/-- The commands that hold the array and the port and wait for an access try again; the arbiter starts one command, at most one in
a ck (14 R342, R343). -/
def State.wheelGo (s : State) (clus : Nat) (late : Bool) : State :=
  let w := s.wheel clus
  let s1 := (w.runArray.toList ++ w.runPort.toList).foldl (fun st q => st.startHead clus late q) s
  if (s1.wheel clus).startAt == some s.cycle then s1
  else
    match s1.wheelPick clus with
    | none => s1
    | some (q, w1) =>
      let array := (w1.head clus q).any fun c => wheelArray c.ins
      let w2 : Wheel := if array then { w1 with runArray := some q } else { w1 with runPort := some q }
      (s1.setWheel clus { w2 with startAt := some s.cycle }).startHead clus late q

/-- WHEEL_COMMAND_START: the picked command starts. -/
def State.wheelStart (s : State) (clus : Nat) : State := s.wheelGo clus false

/-- A command has completed in all its clusters (09 R222, R225; 05 R123). -/
def State.wheelDone (s : State) (c : WCmd) (fl : Flags) (damp : Nat) : State :=
  let s1 := s.editTask c.task fun t => { t with fpflags := orFlags t.fpflags (wheelFlags fl) }
  let s2 := s1.updTask c.task fun t =>
    { t with wdone := t.wdone + 1, wdamp := if c.heavy then BitVec.ofNat 64 (damp % 2 ^ 32) else t.wdamp }
  s2.finishUniCmd c.clus c.id

/-- The longest of a command's waits for leave. -/
def State.dampOf (s : State) (c : WCmd) : Nat :=
  c.cluss.foldl (fun n x => (s.wheel x).queues.foldl (fun m p =>
    p.2.foldl (fun k d => if d.id == c.id then Nat.max k d.damp else k) m) n) 0

/-- A command, or its part in cluster `clus`, has completed; an MMAC gives back its leave when its last part has (09 R237,
14 R344). -/
def State.endPart (s : State) (clus : Nat) (c : WCmd) : State :=
  let w := (s.wheel clus).freeRun clus c.id
  let w1 := match c.ins with
    | .mknot f => w.showKnot (f.x.toNat % 32)
    | .mrefine f => w.showKnot (f.x.toNat % 32)
    | _ => w
  let s1 := (s.setWheel clus w1).updAll c fun d => { d with parts := d.parts.filter (· != clus) }
  if (c.parts.filter (· != clus)).isEmpty then (s1.removeCmd c).wheelDone c c.flags (s1.dampOf c) else s1

/-- WHEEL_COMMAND_COMPLETE: the command that occupies the array, or the port, completes. -/
def State.wheelComplete (s : State) (clus : Nat) (array : Bool) : State :=
  let w := s.wheel clus
  match (if array then w.runArray else w.runPort) with
  | none => s
  | some q =>
    match (w.queue q).find? fun c => c.runs clus with
    | none => s
    | some c =>
      let s1 := match c.snap with
        | none => s.endPart clus c
        | some o =>
          match s.lateEffect clus c o with
          | .ok (fl, x) => (s.free.2.setWheel clus x).endPart clus { c with flags := c.flags ||| fl }
          | .error (.fault cause addr wr pw, _) => s.free.2.wheelFault q c cause addr wr pw
          | .error (.machine, _) => s.free.2.wheelMachine c
          | .error (.wait _, _) => s
      c.cluss.foldl State.askHeads s1

/-- A command enters its queue (09 R218); an MMAC enters queue 8 of its four clusters (09 R237). -/
def State.wheelPush (s : State) (q : Nat) (c : WCmd) : State :=
  let s1 := c.cluss.foldl (fun st x =>
    let w := st.wheel x
    st.setWheel x (w.setQueue q (w.queue q ++ [c]))) s
  c.cluss.foldl State.askHeads s1

/-! Footprints (09 R224, R225). -/

def fpFirst (r : Word) : Nat := Word.bits r 9 0
def fpCount (r : Word) : Nat := Word.bits r 26 16
def fpCoop (r : Word) : Bool := bit1 r 31
def fpRows (sag : Word) : List Nat := (List.range (fpCount sag)).map (fpFirst sag + ·)
def fpUnits (rib : Word) : List Nat := (List.range (fpCount rib)).map (fpFirst rib + ·)
def fpBits (r : Word) (n : Nat) : List Nat := (List.range n).filter fun i => bit1 r i

/-- The bytes of save extension that a footprint needs (09 R224). -/
def footprintBytes (sag bat rib kn : Word) : Nat :=
  if fpCount sag = 0 ∧ bat = 0 ∧ fpCount rib = 0 ∧ kn = 0 then 0
  else 4096 + divUp (64 * fpCount rib) 4096 * 4096 + 4096 * (fpBits bat 64).length
    + 1024 * fpCount sag * (if fpCoop sag then 4 else 1)

/-- The clusters whose rows a footprint names. -/
def Task.sagClus (t : Task) : List Nat :=
  if fpCoop t.wfsag then routerClus (clusOf t.tile) else [clusOf t.tile]

/-! Save and restore (09 R226). -/

/-- A saved command (09 R226). `enc` is the instruction's word. -/
def WCmd.image (c : WCmd) (enc : Option IWord) : List Byte :=
  natBytes c.pc.toNat 8 ++ natBytes c.a.toNat 8 ++ natBytes c.b.toNat 8 ++ natBytes c.c.toNat 8
    ++ natBytes (enc.getD 0).toNat 12 ++ natBytes 0 4

/-- The save extension's bytes (09 R226), with its 16 entries for commands (assumption 103). -/
def State.wheelImage (s : State) (t : Nat) (cmds : List WCmd) (enc : Instr → Option IWord) : List Byte :=
  let x := s.task t
  let w := s.wheel (clusOf x.tile)
  let kns := (List.range 24).flatMap fun i => natBytes (if bit1 x.wfkn i then (w.knot i).toNat else 0) 16
  let head := natBytes x.wfsag.toNat 8 ++ natBytes x.wfbat.toNat 8 ++ natBytes x.wfrib.toNat 8 ++ natBytes x.wfkn.toNat 8
    ++ natBytes (s.wqstat t).toNat 8 ++ natBytes x.werr.toNat 8 ++ natBytes (Nat.min cmds.length 16) 8 ++ natBytes 0 8
  let rib := w.rib.read (64 * fpFirst x.wfrib) (64 * fpCount x.wfrib)
  padTo 4096 (padTo 1024 (head ++ (cmds.take 16).flatMap fun c => c.image (enc c.ins)) ++ kns)
    ++ padTo (divUp (64 * fpCount x.wfrib) 4096 * 4096) rib
    ++ (fpBits x.wfbat 64).flatMap (fun i => w.bat.read (4096 * i) 4096)
    ++ x.sagClus.flatMap fun k => (fpRows x.wfsag).flatMap fun r =>
        (List.range 256).flatMap fun n => natBytes ((s.wheel k).sagAt r n) 4

/-- The clusters whose queue `q` a task's fault stops: those of its router for queue 8 (09 R237). -/
def Task.faultClus (t : Task) (q : Nat) : List Nat := if q = 8 then routerClus (clusOf t.tile) else [clusOf t.tile]

/-- Queues that a task's faults stopped run again. -/
def State.unstop (s : State) (t : Nat) (qs : List Nat) : State :=
  let x := s.task t
  qs.foldl (fun st q => (x.faultClus q).foldl (fun u k =>
    let v := u.wheel k
    u.setWheel k { v with stopped := v.stopped.filter (· != q) }) st) s

def saveBase (saveext : Word) : Nat := Word.bits saveext 63 12 * 4096

/-- A queue's commands before and after the last one of a task. -/
def uptoLast (t : Nat) (l : List WCmd) : List WCmd :=
  l.take (l.length - (l.reverse.takeWhile fun c => c.task != t).length)

/-- The parts of an MMAC that have not started, one after the other. -/
def State.runParts (c : WCmd) : List Nat → State → Except (WFail × State) State
  | [], s => .ok s
  | k :: r, s =>
    match ((s.wheel k).queue 8).find? fun d => d.id == c.id with
    | none => runParts c r s
    | some d =>
      if d.begun.contains k then runParts c r s
      else do
        let s1 ← s.startCmd k d false
        runParts c r s1

/-- Queue 8 completes the commands of a stopped gang's task with those before them (09 R226 step 1). A failure, a wait or
a stopped queue leaves the rest in place. -/
def State.drainCoop (s : State) (clus : Nat) : List WCmd → State
  | [] => s
  | c :: r =>
    if (s.wheel clus).stopped.contains 8 then s
    else
      match State.runParts c c.cluss s with
      | .ok s1 =>
        let fl := (((s1.wheel clus).queue 8).find? fun d => d.id == c.id).map (·.flags)
        ((s1.removeCmd c).wheelDone c (fl.getD c.flags) (s1.dampOf c)).drainCoop clus r
      | .error (.wait _, _) => s
      | .error (.machine, _) => (s.wheelMachine c).drainCoop clus r
      | .error (.fault cause addr wr pw, s1) => s1.wheelFault 8 c cause addr wr pw

/-- Queue 8 with a task's commands completed, as far as they can be. -/
def State.coopDone (s : State) (t : Nat) : State :=
  let clus := clusOf (s.task t).tile
  s.drainCoop clus (uptoLast t ((s.wheel clus).queue 8))

/-- A command of the task in queue 8 waits for an access: a stop waits until the queue can complete it (09 R226 step 1). -/
def State.coopHeld (s : State) (t : Nat) : Bool :=
  let clus := clusOf (s.task t).tile
  ((s.wheel clus).queue 8).any (fun c => c.task == t) &&
    (let w := (s.coopDone t).wheel clus
     !w.stopped.contains 8 && (w.queue 8).any fun c => c.task == t)

/-- Stops a task's Wheel commands (09 R226 steps 1, 2): started ones complete, the others are returned for saving. -/
def State.wheelHalt (s : State) (t : Nat) : List WCmd × State :=
  let x := s.task t
  let clus := clusOf x.tile
  let tic := ticOf x.tile
  let mine := ((s.wheel clus).queue tic).any fun c => c.task == t && c.runs clus
  let s1 := if mine && (s.wheel clus).runArray == some tic then s.wheelComplete clus true
    else if mine && (s.wheel clus).runPort == some tic then s.wheelComplete clus false else s
  let s2 := s1.coopDone t
  let w := s2.wheel clus
  let saved := ((w.queue tic).filter fun c => c.task == t) ++ (w.queue 8).filter fun c => c.task == t
  let s3 := saved.foldl (fun st c => st.removeCmd c) s2
  (saved, (routerClus clus).foldl State.askHeads (s3.unstop t (s3.task t).wstop))

/-- The number under which queue 8 keeps the commands of a task that has ended. -/
def endedTask (t : Nat) : Nat := 2 ^ 64 + t

/-- The commands of a task in queue 8 go under another number. -/
def State.updQueue8 (s : State) (cluss : List Nat) (t u : Nat) : State :=
  cluss.foldl (fun st k =>
    let w := st.wheel k
    st.setWheel k (w.setQueue 8 (updWhere (w.queue 8) (fun c => c.task == t) fun c => { c with task := u }))) s

/-- The Wheel commands of a task that ends: started ones and those of queue 8 complete, the last ones after the task where an
access must wait, and the others are given up (02 R66, 21 R405). -/
def State.wheelEnd (s : State) (t : Nat) : State :=
  let s1 := if s.coopHeld t then
      (s.coopDone t).updQueue8 (routerClus (clusOf (s.task t).tile)) t (endedTask t)
    else s
  let (saved, s2) := s1.wheelHalt t
  saved.foldl (fun st c => st.finishUniCmd c.clus c.id) s2

/-- The parts of a task's footprint in a Wheel's memories and where they lie in its save extension: cluster, memory, first byte,
bytes and address (09 R226). -/
def Task.savedParts (x : Task) : List (Nat × Nat × Nat × Nat × Nat) :=
  let clus := clusOf x.tile
  let base := saveBase x.saveext
  let ribN := 64 * fpCount x.wfrib
  let slots := fpBits x.wfbat 64
  let batAt := base + 4096 + divUp ribN 4096 * 4096
  let sagAt := batAt + 4096 * slots.length
  (clus, 1, 64 * fpFirst x.wfrib, ribN, base + 4096)
    :: (slots.zipIdx).map (fun p => (clus, 0, 4096 * p.1, 4096, batAt + 4096 * p.2))
    ++ (x.sagClus.zipIdx).map fun k =>
      (k.1, 2, 1024 * fpFirst x.wfsag, 1024 * fpCount x.wfsag, sagAt + 1024 * (fpCount x.wfsag * k.2))

/-- Poison goes with the words that a save writes (23 R431). -/
def State.savePoison (s : State) (x : Task) : State :=
  let s1 := s.unpoison (saveBase x.saveext) (footprintBytes x.wfsag x.wfbat x.wfrib x.wfkn)
  x.savedParts.foldl (fun st p =>
    let l := (st.wheel p.1).bad.filter fun b => b.1 == p.2.1 && decide (p.2.2.1 ≤ 8 * b.2) && decide (8 * b.2 < p.2.2.1 + p.2.2.2.1)
    { st with poison := st.poison ++ l.map fun b => (p.2.2.2.2 + (8 * b.2 - p.2.2.1)) / 8 }) s1

/-- Poison goes with the words that a restore reads. -/
def State.restorePoison (s : State) (x : Task) : State :=
  x.savedParts.foldl (fun st p =>
    let w := (st.wheel p.1).unpoison [(p.2.1, p.2.2.1, p.2.2.2.1)]
    let l := st.poison.filter fun a => decide (p.2.2.2.2 ≤ 8 * a) && decide (8 * a < p.2.2.2.2 + p.2.2.2.1)
    st.setWheel p.1 { w with bad := w.bad ++ l.map fun a => (p.2.1, (p.2.2.1 + (8 * a - p.2.2.2.2)) / 8) }) s

/-- Saves a task's Wheel state at a stop (09 R226). -/
def State.wheelSave (s : State) (t : Nat) (enc : Instr → Option IWord) : State :=
  let (saved, s1) := s.wheelHalt t
  let x := s1.task t
  let n := footprintBytes x.wfsag x.wfbat x.wfrib x.wfkn
  let w := s1.wheel (clusOf x.tile)
  let s2 := if n = 0 then s1
    else (s1.setMem (s1.mem.write (saveBase x.saveext) (s1.wheelImage t saved enc))).savePoison x
  s2.updTask t fun y =>
    { y with
      wsaved := saved.map fun c => { c with asked := none, granted := false, parts := c.cluss, begun := [] }
      wimage := some { tags := (fpBits x.wfbat 64).map w.tag, stopped := x.wstop } }

/-- The domain holds these units, slots and knot registers (09 R224). -/
def Wheel.held (w : Wheel) (dom : Nat) (units slots kns : List Nat) : Wheel :=
  { w with unitDom := units.foldl (fun m i => m.set i dom) w.unitDom
           slotDom := slots.foldl (fun m i => m.set i dom) w.slotDom
           knDom := kns.foldl (fun m i => m.set i dom) w.knDom }

/-- The domain holds these rows. -/
def Wheel.heldRows (w : Wheel) (dom : Nat) (rows : List Nat) : Wheel :=
  { w with rowDom := rows.foldl (fun m i => m.set i dom) w.rowDom }

/-- Writes a task's Wheel state back before it resumes (09 R226, 21 R408). -/
def State.wheelRestore (s : State) (t : Nat) : State :=
  let x := s.task t
  match x.wimage with
  | none => s
  | some im =>
    let clus := clusOf x.tile
    let base := saveBase x.saveext
    let ribN := 64 * fpCount x.wfrib
    let slots := fpBits x.wfbat 64
    let batAt := base + 4096 + divUp ribN 4096 * 4096
    let sagAt := batAt + 4096 * slots.length
    let s1 :=
      if footprintBytes x.wfsag x.wfbat x.wfrib x.wfkn = 0 then s
      else
        let w := s.wheel clus
        let w1 := (fpBits x.wfkn 24).foldl (fun (y : Wheel) i =>
          (y.setKnot i (BitVec.ofNat 128 (s.mem.num (base + 1024 + 16 * i) 16))).showKnot i) w
        let w2 : Wheel := { w1 with rib := w1.rib.write (64 * fpFirst x.wfrib) (s.mem.read (base + 4096) ribN) }
        let w3 := (slots.zipIdx).foldl (fun (y : Wheel) p =>
          ({ y with bat := y.bat.write (4096 * p.1) (s.mem.read (batAt + 4096 * p.2) 4096) } : Wheel).setTag p.1
            (im.tags.getD p.2 .empty)) w2
        (x.sagClus.zipIdx).foldl (fun st k =>
          st.setWheel k.1 (((fpRows x.wfsag).zipIdx).foldl (fun (y : Wheel) r =>
            y.setRow r.1 0 ((List.range 256).map fun n =>
              s.mem.num (sagAt + 1024 * (fpCount x.wfsag * k.2 + r.2) + 4 * n) 4)) (st.wheel k.1) |>.heldRows x.dom
                (fpRows x.wfsag)))
          (s.setWheel clus (w3.held x.dom (fpUnits x.wfrib) slots (fpBits x.wfkn 24))) |>.restorePoison x
    let tic := ticOf x.tile
    let s2 := x.wsaved.reverse.foldl (fun st c =>
      let q := match c.ins with
        | .mmac _ => 8
        | _ => tic
      c.cluss.foldl (fun u k =>
        let w := u.wheel k
        let l := w.queue q
        let pre := l.takeWhile fun d => !d.begun.isEmpty
        let given := (w.runArray == some q || w.runPort == some q) && !pre.any fun d => d.runs k
        let run := pre.length + if given then 1 else 0
        u.setWheel k ((u.wheel k).setQueue q (l.take run ++ c :: l.drop run))) st) s1
    let s3 := im.stopped.foldl (fun st q => (x.faultClus q).foldl (fun u k =>
        let v := u.wheel k
        u.setWheel k { v with stopped := insertNat v.stopped q }) st) s2
    (s3.updTask t fun y => { y with wsaved := [], wimage := none }).askHeads clus

/-- What happens before a task's commands in its stopped queues when they run again: all that the task has done and
acquired since (09 R223, 11 R300). -/
def State.renewCmds (s : State) (t : Nat) (qs : List Nat) : State :=
  let x := s.task t
  qs.foldl (fun st q => (x.faultClus q).foldl (fun u k =>
    let w := u.wheel k
    u.setWheel k (w.setQueue q (updWhere (w.queue q) (fun c => c.task == t) fun c =>
      { c with clk := Clock.join c.clk x.clk }))) st) s

/-- The queues stopped by faults of a task whose exceptions it has taken. -/
def Task.takenStops (t : Task) : List Nat := t.wstop.filter fun q => !t.pend.any fun p => p.code == cWheel && p.ref == q

/-- ERET restarts the queues that a fault of this task stopped, once its exception has been taken (09 R223, 21 R401). -/
def State.wheelRestart (s : State) (t : Nat) : State :=
  let x := s.task t
  let qs := x.takenStops
  if qs.isEmpty then s
  else
    (routerClus (clusOf x.tile)).foldl State.askHeads
      (((s.renewCmds t qs).unstop t qs).updTask t fun y =>
        { y with fpend := y.fpend.filter fun q => !qs.contains q, wstop := y.wstop.filter fun q => !qs.contains q })

/-- A write of 1 to WQSTAT.DISCARD with FPEND set (09 R223, R225): the failed command and this task's later commands
in that queue are discarded, and no fault is pending there then; the queue stays stopped until ERET. The queue is that of
the faults taken, or of those held if none is (assumption 80). -/
def State.wheelDiscard (s : State) (t : Nat) : State :=
  let x := s.task t
  let clus := clusOf x.tile
  let taken := x.fpend.filter x.takenStops.contains
  let qs := if taken.isEmpty then x.fpend else taken
  (qs.foldl (fun st q => (((st.wheel clus).queue q).filter fun c => c.task == t).foldl (fun u c =>
    (u.removeCmd c).finishUniCmd c.clus c.id) st) s).updTask t fun y => { y with fpend := y.fpend.filter fun q => !qs.contains q }

end Sys2Proof.Machine
end

