-- ==== Sys2Proof/Machine/Copies.lean ====
section
/-! DEFINITION. The pug engine (10 R249-R257; 14 R344, R349, R351; 21 R412, R413). -/

namespace Sys2Proof.Machine

open Sys2Proof

def cCopy : Nat := 0x21
def cLate : Nat := 0x22
def cMessage : Nat := 0x23

/-! Descriptors (10 R249, R251). -/

/-- The dimensions of a descriptor. -/
def copyDims (m : Nat → Nat → Nat) : List CopyDim :=
  (List.range 6).map fun k =>
    { ext := m (32 + 16 * k) 4, sstr := sint 32 (m (36 + 16 * k) 4), dstr := sint 32 (m (40 + 16 * k) 4),
      plo := m (44 + 16 * k) 2, phi := m (46 + 16 * k) 2 }

def copyTotal (dims : List CopyDim) : Nat := dims.foldl (fun n d => n * d.ext) 1

/-- The number of source elements: padding is not read (14 R349). -/
def copySource (dims : List CopyDim) : Nat := dims.foldl (fun n d => n * (d.ext - d.plo - d.phi)) 1

/-- A format pair that VCVT accepts (08 R197). -/
def cvtPairOk (a b : Nat) : Bool := isCvtFmt a && isCvtFmt b && decide (Nat.max (fmtCap a) (fmtCap b) ≤ 8 * Nat.min (fmtCap a) (fmtCap b))

/-- The checks of 10 R251 on a descriptor given as its number of `n` bytes at an offset, and on the layout word. -/
def copyOk (m : Nat → Nat → Nat) (layout : Word) : Bool :=
  let ctl := BitVec.ofNat 64 (m 16 8)
  let sf := Word.bits ctl 4 0
  let df := Word.bits ctl 9 5
  let op := Word.bits ctl 15 14
  let rnd := Word.bits ctl 18 16
  let nov := bit1 ctl 19
  let dims := copyDims m
  let d0 := dims.getD 0 ⟨0, 0, 0, 0, 0⟩
  let d1 := dims.getD 1 ⟨0, 0, 0, 0, 0⟩
  Word.bits ctl 63 20 == 0 && Word.bits ctl 13 10 == 0 && d0.sstr == 0 && d0.dstr == 0
    && fmtWidth df != 0 && fmtWidth sf != 0
    && decide (m 24 8 < 2 ^ fmtWidth df)
    && dims.all (fun d => decide (1 ≤ d.ext) && decide (d.plo + d.phi ≤ d.ext))
    && decide (copyTotal dims < 2 ^ 48)
    && (op == 0 || (op == 1 && [0, 1, 2, 18, 19, 22, 23].contains df))
    && (sf == df || cvtPairOk sf df)
    && decide (rnd ≤ 4) && (df != 9 || rnd == 0) && (!nov || fmtHasNaN df)
    && (layout == 0 || (layoutOk (layoutOf layout) (fmtWidth df) d1.ext d0.ext && d1.dstr == 0))

/-! Elements (10 R250). -/

/-- The coordinates of linear index `i`. -/
def copyCoords (dims : List CopyDim) (i : Nat) : List Nat :=
  (dims.foldl (fun (p : List Nat × Nat) d => (p.1 ++ [p.2 % d.ext], p.2 / d.ext)) ([], i)).1

/-- The source bit address of an element, or none where it is padding. -/
def copySrcBit (src : Word) (dims : List CopyDim) (ws i : Nat) : Option Nat :=
  let cs := (copyCoords dims i).zip dims
  if cs.all fun p => decide (p.2.plo ≤ p.1) && decide (p.1 < p.2.ext - p.2.phi) then
    let off : Int := (cs.drop 1).foldl (fun a p => a + ((p.1 - p.2.plo : Nat) : Int) * p.2.sstr) 0
    let s0 := match cs with
      | p :: _ => p.1 - p.2.plo
      | [] => 0
    some (8 * wrap 64 ((src.toNat : Int) + off) + s0 * ws)
  else none

/-- The destination bit address of an element. -/
def copyDstBit (dst layout : Word) (dims : List CopyDim) (w i : Nat) : Nat :=
  let cs := (copyCoords dims i).zip dims
  let sum : List (Nat × CopyDim) → Int := fun l => l.foldl (fun a p => a + (p.1 : Int) * p.2.dstr) 0
  let at' := fun k => (cs.getD k (0, ⟨0, 0, 0, 0, 0⟩)).1
  if layout = 0 then 8 * wrap 64 ((dst.toNat : Int) + sum (cs.drop 1)) + at' 0 * w
  else layoutBit (wrap 64 ((dst.toNat : Int) + sum (cs.drop 2))) (layoutOf layout) w (at' 1) (at' 0)

/-- The dither index of a memory element (05 R118). -/
def memIndex (bit w : Nat) : Nat := if 8 ≤ w then bit / 8 / (w / 8) % 4096 else bit / w % 4096

/-- convert (10 R250). -/
def copyConvert (sf df rnd : Nat) (nov : Bool) (c idx : Nat) : Nat × Flags :=
  if sf = df then (c, 0)
  else
    let x := dec sf c
    let (y, f) := roundFmt x df rnd idx true nov
    (y, f ||| x.sigFlags ||| decFlags sf c)

/-- add_fmt (10 R250). -/
def copyAdd (df rnd x y idx : Nat) : Nat × Flags :=
  if isFloatFmt df then
    let a := dec df x
    let b := dec df y
    let (r, f) := XV.add rnd a b
    let (c, g) := roundFmt r df rnd idx false false
    (c, f ||| g ||| a.sigFlags ||| b.sigFlags ||| decFlags df x ||| decFlags df y)
  else ((x + y) % 2 ^ fmtWidth df, 0)

/-- An access of one element: aligned to its size from 8 bits upwards (10 R251). -/
def elemAcc (bit w : Nat) (wr plain : Bool) : Acc :=
  { va := BitVec.ofNat 64 (bit / 8), n := w / 8, al := w / 8, wr := wr, plain := plain, pcie := true }

/-- The value that an element read of PCIe space returns: what is outside is free (01 R33; assumption 11). -/
def State.readPcie (s : State) (port pa n : Nat) : Nat × State :=
  ((Config.freeWord s.fresh).toNat % 2 ^ (8 * n), ({ s with fresh := s.fresh + 1 } : State).emit (.ioRead port (pa % 2 ^ 48) n))

/-- A byte access of an element of less than 8 bits. -/
def subAcc (bit : Nat) (wr : Bool) : Acc := { engAcc (bit / 8) 1 wr with pcie := true }

/-- Reads an element. -/
def State.readElem (s : State) (who : Who) (bit w : Nat) : Except Chk (Nat × State) :=
  if 8 ≤ w then
    let a := elemAcc bit w false false
    match s.check who a with
    | .ok pa t =>
      match pciePort? pa with
      | some p => .ok (s.readPcie p pa a.n)
      | none => .ok (s.readAt who a pa t)
    | c => .error c
  else
    match s.check who (subAcc bit false) with
    | .ok pa _ =>
      match pciePort? pa with
      | some p => let (x, s1) := s.readPcie p pa 1; .ok (x / 2 ^ (bit % 8) % 2 ^ w, s1)
      | none => s.readBits who bit w
    | c => .error c

/-- Whether the lines of an element are pinned by a cluster for a task, as a CPYR on one device requires (10 R255). -/
def State.pinnedAt (s : State) (pa n clus : Nat) : Bool :=
  (linesOf pa n).all fun l => (s.dirEnt l).st == .p 0 clus

/-- Writes an element, or accumulates into it. `pinned` is the cluster that must pin the destination. -/
def State.writeElem (s : State) (who : Who) (bit w code : Nat) (acc : Option (Nat × Nat)) (pinned : Option Nat) :
    Except Chk (Flags × State) :=
  let a : Acc :=
    if 8 ≤ w then elemAcc bit w true acc.isSome
    else subAcc bit true
  match s.check who a with
  | .ok pa t =>
    let okPin := match pinned with
      | none => true
      | some c => s.pinnedAt pa a.n c
    if !okPin then .error (.trap { cause := cPinned, addr := a.va, w := true })
    else if let some p := pciePort? pa then
      let (x, s1) := s.readPcie p pa a.n
      let (y, f, s2) := match acc with
        | some (df, rnd) => let r := copyAdd df rnd x code (memIndex bit w); (r.1, r.2, s1)
        | none => if 8 ≤ w then (code, 0, s) else (mixBits x (bit % 8) w code % 256, 0, s1)
      .ok (f, s2.emit (.ioWrite p (pa % 2 ^ 48) (natBytes y a.n)))
    else
      match acc with
      | some (df, rnd) =>
        if (wordsOf pa a.n).any s.poison.contains then .error (.trap { cause := cMemCheck, addr := a.va, w := true })
        else
          let (y, f) := copyAdd df rnd (s.mem.num pa a.n) code (memIndex bit w)
          .ok (f, ((s.note who a pa t).dirAtomicAt (clusOf who.tile) pa a.n).putBytes pa (natBytes y a.n))
      | none =>
        if 8 ≤ w then .ok (0, s.writeAt who a pa t code)
        else (s.writeBits who bit w code).map fun s1 => (0, s1)
  | c => .error c

/-! Commands of the queues (10 R254). -/

def State.copy? (s : State) (clus id : Nat) : Option Copy := (s.clus clus).copies.find? fun c => c.id == id

def State.updCopy (s : State) (clus id : Nat) (f : Copy → Copy) : State :=
  s.updClus clus fun k => { k with copies := updWhere k.copies (fun c => c.id == id) f }

/-- The unfinished commands that entered one of this command's queues before it. -/
def Clus.before (k : Clus) (c : Copy) : List Copy :=
  (k.copies.takeWhile fun d => d.id != c.id).filter fun d => (d.mask &&& c.mask) != 0

def maskQueues (m : BitVec 8) : List Nat := (List.range 8).filter fun q => m.getLsbD q

/-- What the earlier commands of the queues published among themselves (11 R294). -/
def Clus.queueClk (k : Clus) (m : BitVec 8) : Clock :=
  (maskQueues m).foldl (fun c q => Clock.join c (k.copyClk.getD q [])) []

/-- A copy reaches other places than its issuer's cluster by a target word: it is a CPYR. -/
def Copy.toCluster (c : Copy) : Bool :=
  match c.op with
  | .copy _ _ _ _ _ _ _ _ _ _ dest _ => dest.isSome
  | .fence => false

/-- A party of a copy: that of its reads, or of one run's writes (11 R294, R295). A CPYR of a compact's member is barred from the
lines of the other member clusters (13 R331). -/
def State.copyWho (s : State) (c : Copy) (party : Nat) : Who :=
  { dom := c.dom, tile := c.tile, party := party, clk := c.clk, member := none,
    cpyrOf := if c.toCluster && !c.ended then (s.task? c.task).bind s.memberOf else none, rd := some (.copy (clusOf c.tile) c.id) }

/-- The party of the writes of the copy's next run. -/
def Copy.writer (c : Copy) : Nat := c.wparties.getLast?.getD c.party

/-- The accesses of a part of a copy, as a clock. -/
def Copy.partClk (c : Copy) (p : Nat) : Clock := pubClock p (Nat.max 1 (Clock.at c.clk p))

/-- What the copy's completion publishes: its writes (10 R256, 11 R295). -/
def Copy.pub (c : Copy) : Clock := c.wparties.foldl (fun k p => Clock.join k (c.partClk p)) []

/-- A command leaves its queues; later commands follow all its accesses. -/
def State.removeCopy (s : State) (clus : Nat) (c : Copy) : State :=
  let s1 := (c.party :: c.wparties).foldl (fun st p => st.unqueue (.party p)) (s.unparkRead (.copy clus c.id))
  s1.updClus clus fun k =>
    let after := Clock.join (Clock.join (Clock.join (k.queueClk c.mask) c.clk) c.pub) (c.partClk c.party)
    { k with
      copies := k.copies.filter fun d => d.id != c.id
      copyClk := (maskQueues c.mask).foldl (fun m q => m.set q after) k.copyClk
      leaves := k.leaves.filter fun l => l != (false, c.id)
      damperQ := k.damperQ.filter fun r => !(!r.1 && r.2.1 == c.id) }

/-- Bytes counted once `d` of `n` elements of `w` bits are performed (10 R255). -/
def bytesUpTo (d n w : Nat) : Nat := if d = n then divUp (n * w) 8 else d * w / 8

/-- A copy stops at a fault at element `i` (21 R412). -/
def State.copyFault (s : State) (clus : Nat) (c : Copy) (i : Nat) (t : Trap) : State :=
  let s1 := (s.unparkRead (.copy clus c.id)).updCopy clus c.id fun d =>
    { d with run := .faulted, done := i, bad := none, fcause := t.cause, fwrite := t.w, faddr := t.addr }
  if c.ended then
    ((s1.removeCopy clus c).tell (.copyFaultEnded clus c.id))
  else
    s1.updTask c.task fun x =>
      { x with pend := x.pend ++ [{ code := cCopy, detail := t.cause, addr := t.addr, w := t.w, pw := t.pw, info := 0
                                    ref := c.id }] }

/-- Element `i` of a copy fails: it stops there once no packet of it is unacknowledged, at the first element that has
failed by then (14 R351). -/
def State.copyBad (s : State) (clus id i : Nat) (t : Trap) : State :=
  match s.copy? clus id with
  | none => s
  | some c =>
    let b := match c.bad with
      | some x => if x.1 ≤ i then x else (i, t)
      | none => (i, t)
    if c.unacked = 0 then s.copyFault clus c b.1 b.2 else s.updCopy clus id fun d => { d with bad := some b }

/-- The walk over the elements from `i`, `n` of them: flags, elements performed for another device, and where it
stopped, with whether that was at a write. -/
def copyWalk (whoR whoW : Who) (src dst pad : Word) (sf df op rnd : Nat) (nov : Bool) (dims : List CopyDim) (layout : Word)
    (remote : Bool) (pinned : Option Nat) : Nat → Nat → State → Flags → List WireElem →
    State × Flags × List WireElem × Nat × Option (Bool × Chk)
  | 0, i, s, fl, es => (s, fl, es, i, none)
  | n + 1, i, s, fl, es =>
    let w := fmtWidth df
    let dbit := copyDstBit dst layout dims w i
    let got : Except Chk (Nat × Flags × State) :=
      match copySrcBit src dims (fmtWidth sf) i with
      | none => .ok (pad.toNat % 2 ^ w, 0, s)
      | some b => (s.readElem whoR b (fmtWidth sf)).map fun r =>
          let (y, f) := copyConvert sf df rnd nov r.1 (memIndex dbit w)
          (y, f, r.2)
    match got with
    | .error k => (s, fl, es, i, some (false, k))
    | .ok (code, f, s1) =>
      let acc := if op = 1 then some (df, rnd) else none
      if remote then
        copyWalk whoR whoW src dst pad sf df op rnd nov dims layout remote pinned n (i + 1) s1 (fl ||| f)
          (es ++ [{ bit := dbit, w := w, code := code, acc := acc }])
      else
        match s1.writeElem whoW dbit w code acc pinned with
        | .error k => (s, fl, es, i, some (true, k))
        | .ok (g, s2) =>
          copyWalk whoR whoW src dst pad sf df op rnd nov dims layout remote pinned n (i + 1) s2 (fl ||| f ||| g) es

/-- A pending-byte decrement goes to the cone that target word `recv` names, from cluster `clus` (10 R248, R255). -/
def State.sendBytes (s : State) (clus dom : Nat) (recv : Word) (bytes party : Nat) : State :=
  if twDev recv = s.devnum.toNat then
    if s.isPresent (twClus recv) then
      { s with pbdecs := s.pbdecs ++ [{ clus := twClus recv, cid := twCid recv, bytes := bytes, dom := dom
                                        clk := pubClock party 1 }] }
    else s.dropSend clus
  else if s.uetReach (twDev recv) then
    s.sendPacket (twDev recv) (.decrement dom (twClus recv) (twCid recv) bytes) 0 0 (pubClock party 1) clus
  else s.dropSend clus

/-- The decrement of a run of a CPYR on this device. -/
def State.countBytes (s : State) (clus : Nat) (c : Copy) (recv : Word) (bytes : Nat) : State :=
  if recv = 0 ∨ bytes = 0 then s else s.sendBytes clus c.dom recv bytes c.writer

/-! The copy's data in the fabric (20 R380). -/

/-- The queue whose turn injects a command's flits. -/
def Copy.queue (c : Copy) : Nat := (maskQueues c.mask).headD 0

/-- The lines that elements at these bit addresses lie in, without repeats of neighbours. -/
def linesAt : List Nat → List Nat
  | [] => []
  | b :: r => let l := linesAt r; if l.head? == some (b / 1024) then l else (b / 1024) :: l

/-- The lines written by a run go to their homes as flits. -/
def State.lineFlits (s : State) (clus : Nat) (c : Copy) (bits : List Nat) : State :=
  (linesAt bits).foldl (fun st l =>
    match st.translate c.dom (128 * l) with
    | .error _ => st
    | .ok t => st.inject (clusEndpoint clus) (st.homeEndpoint t.pa) 2 (st.freeMid (clusEndpoint clus) c.id) c.id c.queue
        [BitVec.ofNat 512 (bytesNum (st.mem.read t.pa 64)), BitVec.ofNat 512 (bytesNum (st.mem.read (t.pa + 64) 64))]) s

/-- The payload of a packet's elements: their codes, packed. -/
def wirePays (es : List WireElem) : List (BitVec 512) :=
  let x := es.foldl (fun (p : Nat × Nat) e => (p.1 + e.code * 2 ^ p.2, p.2 + e.w)) (0, 0)
  (List.range (divUp x.2 512)).map fun i => BitVec.ofNat 512 (x.1 / 2 ^ (512 * i))

/-- A packet of a CPYR leaves for another device, its data through the fabric to the port's I/O die. Its writes are a part
of the copy's party. -/
def State.sendElems (s : State) (clus : Nat) (c : Copy) (d recv : Word) (start : Nat) (es : List WireElem) : State :=
  let (party, s1) := s.partParty c.party
  let total := match c.op with
    | .copy _ _ _ _ _ _ _ _ dims _ _ _ => copyTotal dims
    | .fence => 0
  let s2 := s1.sendPacketAt (twDev d) (.cpyrData c.dom (twClus d) party es (if recv = 0 then none else some recv) start total)
    c.task c.id start c.clk clus
  let e := clusEndpoint clus
  let port := s.sprayPort (twDev d) s.nextId
  (s2.inject e (ioEndpoint port) 2 (s2.freeMid e c.id) c.id c.queue (wirePays es)).updCopy clus c.id fun x =>
    { x with unacked := x.unacked + 1, wparties := x.wparties ++ [party] }

/-- A copy whose access waits stands at the line's home; its next run writes as a new part of its party if this one has written. -/
def State.copyHeld (s : State) (clus id : Nat) (wrote : Bool) (k : Bool × Chk) : State :=
  let (party, s1) := if wrote then s.partParty ((s.copy? clus id).map (·.party) |>.getD 0) else (0, s)
  let s2 := if wrote then s1.updCopy clus id fun c => { c with wparties := c.wparties ++ [party] } else s1
  match s2.copy? clus id with
  | none => s2
  | some c =>
    match k.2 with
    | .park comp line => s2.parkAt (.copy clus id) comp line
    | .locked line => s2.queueAt line (.party (if k.1 then c.writer else c.party))
    | _ => s2

/-- COPY_START (10 R253, R254): the copy performs its elements; a failing one stops it with DONE at that element, and
a parked or held access leaves it waiting. An accumulate copy and one with a layout send one packet at a time to another
device (14 R351). -/
def State.copyStart (s : State) (clus id : Nat) : State :=
  match s.copy? clus id with
  | none => s
  | some c0 =>
    let k := s.clus clus
    if c0.run != .queued || c0.bad.isSome || !(k.before c0).isEmpty then s
    else if c0.heavy && !c0.granted then
      if k.damperQ.any fun r => !r.1 && r.2.1 == id then s
      else s.updClus clus fun x => { x with damperQ := askDamper x.damperQ false id s.cycle }
    else
      match c0.op with
      | .fence => s
      | .copy src dst pad sf df op rnd nov dims layout dest recv =>
        let own := Clock.join (pubClock c0.party 1) (pubClock c0.writer 1)
        let c := { c0 with clk := Clock.join (Clock.join c0.clk (k.queueClk c0.mask)) own }
        let remote := match dest with
          | some d => twDev d != s.devnum.toNat
          | none => false
        let pinned := dest.map twClus
        let total := copyTotal dims
        let w := fmtWidth df
        let n := if remote && (op == 1 || layout != 0) then Nat.min (total - c.done) (32768 / w) else total - c.done
        let (s1, fl, es, i, stop) := copyWalk (s.copyWho c c.party) (s.copyWho c c.writer) src dst pad sf df op rnd nov dims layout remote
          pinned n c.done s 0 []
        let bytes := bytesUpTo i total w - bytesUpTo c.done total w
        let held := stop.isSome && !(stop matches some (_, .trap _))
        let s2 := s1.updCopy clus id fun d =>
          { d with clk := c.clk, done := i, run := if held then .queued else .running, flags := d.flags ||| fl }
        let s4 := match dest with
          | some d =>
            if !remote then
              (s2.countBytes clus c recv bytes).lineFlits clus c
                ((List.range (i - c.done)).map fun j => copyDstBit dst layout dims w (c.done + j))
            else
              let st1 := if s2.uetReach (twDev d) || es.isEmpty then s2 else s2.dropSend clus
              ((chunks (32768 / w) es es.length).zipIdx).foldl (fun (u : State) p =>
                u.sendElems clus c d recv (c.done + p.2 * (32768 / w)) p.1) st1
          | none => s2.lineFlits clus c ((List.range (i - c.done)).map fun j => copyDstBit dst layout dims w (c.done + j))
        let s3 := if c.done < i || stop.isNone then s4.servedDone (.copy clus id) c.clk else s4
        match stop with
        | none => s3
        | some (_, .trap t) => s3.copyBad clus id i t
        | some k => s3.copyHeld clus id (!remote && c.done < i) k

/-- The acknowledgement of a packet of a CPYR: `count` of its elements have been performed, and a nonzero status is the cause
of the next one's failure (10 R255, 20 R393). -/
def State.copyAcked (s : State) (clus : Nat) (u : UePkt) (es : List WireElem) (status count : Nat) (fl : Flags) (pw : Bool) :
    State :=
  let s1 := s.updCopy clus u.ref fun c => { c with unacked := c.unacked - 1, flags := c.flags ||| fl }
  let addr := BitVec.ofNat 64 (((es[count]?).map (·.bit)).getD 0 / 8)
  let s2 := if status = 0 then s1 else s1.copyBad clus u.ref (u.start + count) { cause := status, addr := addr, w := true, pw := pw }
  match s2.copy? clus u.ref with
  | none => s2
  | some c =>
    if c.unacked != 0 || c.run == .faulted then s2
    else
      match c.bad, c.op with
      | some b, _ => s2.copyFault clus c b.1 b.2
      | none, .copy _ _ _ _ _ _ _ _ dims _ _ _ =>
        if c.run == .running && decide (c.done < copyTotal dims) then s2.updCopy clus u.ref fun d => { d with run := .queued } else s2
      | none, .fence => s2

/-- Flags go to the issuing task; those of an ended one are discarded (05 R123). -/
def State.copyFlags (s : State) (c : Copy) (f : Flags) : State :=
  if c.ended then s else s.editTask c.task fun t => { t with fpflags := orFlags t.fpflags f }

/-- COPY_COMPLETE (10 R256): every write is performed and acknowledged. -/
def State.copyComplete (s : State) (clus id : Nat) : State :=
  match s.copy? clus id with
  | none => s
  | some c =>
    match c.op with
    | .fence => s
    | .copy _ _ _ _ _ _ _ _ dims _ _ _ =>
      if c.run != .running || c.done != copyTotal dims || c.unacked != 0 then s
      else
        let s0 := if c.ended then s
          else s.updTask c.task fun t => { t with copied := t.copied ++ [(c.promise, c.pub)] }
        let s1 := (s0.copyFlags c c.flags).removeCopy clus c
        match c.cone with
        | none => s1
        | some cid => s1.remoteArrive clus cid c.dom true c.pub

/-- CPYQF_FENCE_COMPLETE (10 R257). -/
def State.fenceComplete (s : State) (clus id : Nat) : State :=
  match s.copy? clus id with
  | none => s
  | some c =>
    match c.op with
    | .fence =>
      if !((s.clus clus).before c).isEmpty then s
      else
        let s1 := s.removeCopy clus { c with clk := (s.clus clus).queueClk c.mask }
        match c.cone with
        | none => s1
        | some cid => s1.remoteArrive clus cid c.dom true []
    | .copy .. => s

/-- LATE_PROMISE_EXPIRY (10 R256, 21 R413): once per copy. A stopped copy's trap is held until the ERET of its fault. -/
def State.lateExpiry (s : State) (clus id : Nat) : State :=
  match s.copy? clus id with
  | none => s
  | some c =>
    if c.late || c.run == .faulted || decide (s.cycle < c.promise) || c.op == .fence then s
    else
      let s1 := s.updCopy clus id fun d => { d with late := true }
      if c.ended then (s1.updClus clus fun k => { k with lateCopies := k.lateCopies + 1 }).tell (.lateCopy clus id)
      else
        s1.updTask c.task fun t =>
          { t with pend := t.pend ++ [{ code := cLate, detail := 0, addr := 0, w := false,
                                        info := c.promise.setWidth 32, ref := id }] }

/-- A late-promise trap of an abandoned copy that is still pending is not taken (21 R413). -/
def State.dropLate (s : State) (c : Copy) : State :=
  s.updTask c.task fun t => { t with pend := t.pend.filter fun p => !(p.code == cLate && p.ref == c.id) }

/-- The end of a copy fault at ERET (21 R413): abandoned, or resumed at DONE, after all that its task has done and acquired
since (11 R300). -/
def State.copyRetry (s : State) (clus id : Nat) (abandon : Bool) : State :=
  match s.copy? clus id with
  | none => s
  | some c =>
    if c.run != .faulted then s
    else if abandon || c.fcause == 0xFF then ((s.copyFlags c c.flags).dropLate c).removeCopy clus c
    else
      let (party, s1) := s.partParty c.party
      s1.updCopy clus id fun d =>
        { d with run := .queued, clk := Clock.join d.clk (s.task c.task).clk, wparties := d.wparties ++ [party] }

/-- A task's copies go on without it once it has ended; a stopped one is abandoned (10 R256, 21 R413). -/
def State.orphanCopies (s : State) (clus t : Nat) : State :=
  ((s.clus clus).copies.filter fun c => c.task == t && !c.ended).foldl (fun st c =>
    if c.run == .faulted then (st.removeCopy clus c).tell (.copyFaultEnded clus c.id)
    else st.updCopy clus c.id fun d => { d with ended := true }) s

/-- The promise of a copy (14 R349). -/
def promiseOf (now prev : Word) (flits level extra : Nat) (heavy : Bool) : Word :=
  BitVec.ofNat 64 (Nat.max now.toNat prev.toNat + divUp (72 * flits) (8 - level) + 16384 + extra
    + (if heavy then 4096 else 0))

/-- 64-byte flits of a copy (14 R349). -/
def copyFlits (sf df op : Nat) (dims : List CopyDim) : Nat :=
  let sb := divUp (copySource dims * fmtWidth sf) 8
  let db := divUp (copyTotal dims * fmtWidth df) 8
  divUp (sb + (if op = 1 then 2 * db else db)) 64

end Sys2Proof.Machine
end

