-- ==== Sys2Proof/Machine/KilnLog.lean ====
section
/-! DEFINITION. The kiln log and the error counters (23 R431-R433). -/

namespace Sys2Proof.Machine

open Sys2Proof

/-- The CYCLE of an entry of the log. -/
def logCycle (e : List Byte) : Nat := bytesNum (e.take 8)

/-- The source endpoint of an entry. -/
def logSrc (e : List Byte) : Nat := bytesNum ((e.drop 9).take 2)

/-- Puts an entry behind the `n` events of a ring, before those of its ck that have a higher source endpoint (23 R432). -/
def logInsert (log : Map (List Byte)) (e : List Byte) : Nat → Map (List Byte)
  | 0 => log.set 0 e
  | n + 1 =>
    match log.get? (n % 4096) with
    | some p =>
      if logCycle p = logCycle e && decide (logSrc e < logSrc p) then (logInsert log e n).set ((n + 1) % 4096) p
      else log.set ((n + 1) % 4096) e
    | none => log.set ((n + 1) % 4096) e

/-- Appends an event to a die's ring. -/
def State.klogAdd (s : State) (die kind src tile : Nat) (info addr : Word) : State :=
  let d := s.die die
  let e := wordBytes s.cycle ++ natBytes kind 1 ++ natBytes src 2 ++ [0] ++ natBytes tile 4 ++ wordBytes info
    ++ wordBytes addr
  s.setDie die { d with klog := logInsert d.klog e d.klhead, klhead := d.klhead + 1 }

/-- An event that concerns a tile. -/
def State.klogTile (s : State) (kind tile : Nat) (info addr : Word) : State :=
  s.klogAdd (dieOf tile) kind (clusEndpoint (clusOf tile)) tile info addr

/-- An event of a die that concerns no tile; the manual does not say which endpoint is its source, so that is free
(assumptions 11 and 59). -/
def State.klogDie (s : State) (die kind : Nat) (info addr : Word) : State :=
  let (n, s1) := s.free
  s1.klogAdd die kind ((Config.freeWord n).toNat % 4096) 0xFFFFFFFF info addr

/-- One more, up to 2^32 − 1 (23 R431). -/
def countUp (n : Nat) : Nat := Nat.min (2 ^ 32 - 1) (n + 1)

/-- A corrected SRAM error of a die is counted. -/
def State.corrected (s : State) (die : Nat) : State := s.updDie die fun d => { d with corrSram := countUp d.corrSram }

/-- Byte list `l` with bit `b` of its 512 inverted. -/
def flipBit (l : List Byte) (b : Nat) : List Byte := l.modify (b / 8) fun x => x ^^^ BitVec.ofNat 8 (2 ^ (b % 8))

/-- What an ECC error does (23 R431, assumption 94): a corrected one is counted; an uncorrectable word is poisoned, and is
counted and logged at the die that holds it; a bit of a code line is wrong until the tile checks the line's parity. -/
def State.eccError (s : State) : EccError → State
  | .sram die => if die < 8 then s.corrected die else s
  | .hbm die => if die < 8 then s.updDie die fun d => { d with corrHbm := countUp d.corrHbm } else s
  | .word die pa =>
    if 8 ≤ die || 2 ^ 40 ≤ pa || s.poison.contains (pa / 8) then s
    else
      ((({ s with poison := s.poison ++ [pa / 8] } : State).updDie die fun d => { d with poisoned := countUp d.poisoned }).klogDie
        die 7 0 (BitVec.ofNat 64 (alignDown pa 8)))
  | .wheel clus mem word =>
    if 512 ≤ clus || 3 ≤ mem then s
    else
      let w := s.wheel clus
      (((s.setWheel clus { w with bad := w.bad ++ [(mem, word)] }).updDie (dieOfClus clus) fun d =>
        { d with poisoned := countUp d.poisoned }).klogDie (dieOfClus clus) 7 0 0)
  | .code tile key bit =>
    let x := s.tile tile
    match x.lines.get? key with
    | none => s
    | some l => if bit < 500 then s.setTile tile { x with lines := x.lines.set key (flipBit l bit) } else s

end Sys2Proof.Machine
end

