-- ==== Sys2Proof/Machine/Fetch.lean ====
section
/-! DEFINITION. Fetching code (04 R87-R90, R93, R106). -/

namespace Sys2Proof.Machine

open Sys2Proof

def cFetch : Nat := 0x38

/-- The slot that a PC names (04 R87). -/
def slotOf (pc : Word) : Option Nat :=
  let r := pc.toNat % 64
  if r % 12 = 0 && decide (r < 60) then some (r / 12) else none

/-- The address of the line that holds a PC. -/
def lineOf (pc : Word) : Word := BitVec.ofNat 64 (alignDown pc.toNat 64)

/-- Slot `i` of a line's bytes (04 R87). -/
def lineSlot (l : List Byte) (i : Nat) : IWord := BitVec.ofNat 96 (bytesNum ((l.drop (12 * i)).take 12))

/-- The line word (04 R88). -/
def lineWord (l : List Byte) : Nat := bytesNum (l.drop 60)

/-- The XOR of the low `n` bits of a number. -/
def parityOf : Nat → Nat → Bool
  | 0, _ => false
  | n + 1, x => Bool.xor (x % 2 == 1) (parityOf n (x / 2))

/-- The eleven parity bits hold (04 R88, R89). -/
def lineParityOk (l : List Byte) : Bool :=
  let lw := lineWord l
  lw.testBit 19 == parityOf 19 lw
    && (List.range 5).all fun i => (List.range 2).all fun h =>
        lw.testBit (9 + 2 * i + h) == parityOf 48 ((lineSlot l i).toNat / 2 ^ (48 * h))

/-- Whether slot `i` may be entered by a transfer (04 R88). -/
def lineTgt (l : List Byte) (i : Nat) : Bool := (lineWord l).testBit i

/-- The last slot of the bundle that starts at slot `i` (04 R90). -/
def bundleEnd (lw : Nat) : Nat → Nat → Nat
  | 0, i => i
  | n + 1, i => if 4 ≤ i || lw.testBit (5 + i) then i else bundleEnd lw n (i + 1)

/-- The slots of the bundle that starts at slot `i`. -/
def bundleSlots (l : List Byte) (i : Nat) : List Nat :=
  (List.range (bundleEnd (lineWord l) 5 i + 1 - i)).map (i + ·)

/-- The PC that sequential flow reaches after a bundle that ends at slot `j` (04 R90). -/
def pcAfter (pc : Word) (j : Nat) : Word :=
  if j < 4 then lineOf pc + BitVec.ofNat 64 (12 * (j + 1)) else lineOf pc + 64

/-- The outcome of fetching a line. -/
inductive Fetched where
  | trap (t : Trap)
  | stall
  | locked (line : Nat)
  | parked (comp line : Nat)
  | line (l : List Byte) (s : State)

/-- Steps 1 and 2 of 04 R93 for task `t` at `pc`. A tile's copy that differs from memory may be used until a FENCE
(04 R106, assumption 7); a copy with bad parity is discarded and fetched once more (04 R89). The task's copies are discarded at its
acquires and when a task starts in its frame, so a store that happens-before the fetch is seen; a fetch that a boundary serves
uses none. -/
def State.fetchLine (s : State) (t : Nat) (pc : Word) : Fetched :=
  let x := s.task t
  let bad : Nat → Nat → Fetched := fun c l => .trap { cause := c, addr := pc, level := l, info := some 0 }
  if Word.bits pc 63 55 != 0 then bad cAddress 0
  else
    if s.walkHeld x.dom pc.toNat then .stall
    else match s.translate x.dom pc.toNat with
    | .error f => bad f.cause f.level
    | .ok tr =>
      if tr.swz == 7 then bad cTable tr.level
      else if !tr.x then bad cPerm 0
      else if physClass tr.pa != .hbm then bad cPhys 0
      else if s.lost.contains (homeDie tr.pa) then bad cHomeLost 0
      else if s.folding tr.pa then .stall
      else if s.inShadow (alignDown tr.pa 64) 64 then bad cPinned 0
      else
        let pa := alignDown tr.pa 64
        let w : Who := s.whoOf t (.fetch t)
        match s.lineCheck w { va := lineOf pc, n := 64, al := 1, wr := false } (pa / 128) with
        | some (.trap f) => bad f.cause f.level
        | some (.locked l) => .locked l
        | some (.park n l) => .parked n l
        | some _ => .stall
        | none =>
          if (wordsOf pa 64).any s.poison.contains then bad cMemCheck 0
          else
            let now := s.mem.read pa 64
            let key := lineKey t pa
            let copy := if (s.servedOf w.rd).isEmpty then (s.tile x.tile).lines.get? key else none
            let first := match copy with
              | some l => if !lineParityOk l || l != now && Config.useCachedLine (s.choiceAt * 2 ^ 64 + pa) then l else now
              | none => now
            let chose := match copy with
              | some l => l != now
              | none => false
            let got := fun (st : State) (l : List Byte) =>
              let tl := st.tile x.tile
              (((((if chose then st.free.2 else st).fillTlb x.dom pc.toNat tr).setTile x.tile
                { tl with lines := tl.lines.set key l }).passed w pa 64).dirReadAt (clusOf x.tile) pa 64).servedDone (.fetch t) x.clk
            if lineParityOk first then .line first (got s first)
            else if lineParityOk now then
              .line now (((got s now).updClus (clusOf x.tile) fun c => { c with softErr := c.softErr + 1 }).corrected (dieOf x.tile))
            else bad cFetch 0

/-- The class of an opcode is V (04 R91, R105). -/
def opcIsV (opc : Nat) : Bool := 0x400 ≤ opc && opc < 0x800

/-- The bytes of the line at a PC as they stand, where they can be read. -/
def State.peekLine (s : State) (dom : Nat) (pc : Word) : Option (List Byte) :=
  match s.translate dom pc.toNat with
  | .error _ => none
  | .ok tr => some (s.mem.read (alignDown tr.pa 64) 64)

/-- fb_target (04 R98). -/
def fbTarget (pc : Word) (off : BitVec 61) (slot : BitVec 3) : Word :=
  lineOf pc + (off.signExtend 64 <<< 6) + BitVec.ofNat 64 (12 * slot.toNat)

/-- Whether an instruction may send the I-stream elsewhere than to the next slot: a transfer, EXIT or ERET. -/
def opcLeaves (opc : Nat) : Bool := (0x180 ≤ opc && opc ≤ 0x1C3) || opc == 0xF02

/-- A V-class instruction in the slots of a bundle after slot `i`. -/
def vAfter (l : List Byte) (i : Nat) : Option Nat :=
  ((bundleSlots l i).drop 1).find? fun j => opcIsV (opcOf (lineSlot l j)).toNat

/-- The relation of a BR (06 R154). -/
def brHolds (opc : Nat) (a b : Word) : Option Bool :=
  match opc with
  | 0x190 => some (a == b)
  | 0x192 => some (a != b)
  | 0x194 => some (a.ult b)
  | 0x195 => some (a.slt b)
  | 0x196 => some (b.ule a)
  | 0x197 => some (b.sle a)
  | 0x198 => some (a.ule b)
  | 0x199 => some (a.sle b)
  | 0x19A => some (b.ult a)
  | 0x19B => some (b.slt a)
  | _ => none

/-- A source register as it stands; none for a queue. -/
def Task.stands (x : Task) : Reg → Option Word
  | .s n => some (x.sreg n)
  | .m n => some (x.mreg n)
  | .k n => some ((x.kreg n).setWidth 64)
  | .v _ => some 0
  | .q _ => none

/-- Where an active transfer at `pc` goes by the registers as they stand: `some none` falls through. -/
def Task.goes (x : Task) (pc : Word) (w : IWord) : Option (Option Word) :=
  let opc := (opcOf w).toNat
  let tgt := fbTarget pc (w.extractLsb' 3 61) (w.extractLsb' 0 3)
  if opc = 0x180 then some (some tgt)
  else if opc = 0x181 then (x.stands (regAt w 72)).map fun a => if a - 1 = 0 then none else some tgt
  else if opc < 0x1C0 then do
    let a ← x.stands (regAt w 72)
    let b ← x.stands (regAt w 65)
    (brHolds opc a b).map fun r => if r then some tgt else none
  else if opc = 0x1C0 || opc = 0x1C1 then (x.stands (regAt w 65)).map some
  else if opc = 0xF02 then some (some x.ipc)
  else none

/-- Whether the instruction at a slot is active: known for the next bundle, `fst`, and for a predicate of k0. -/
def Task.actsAt (x : Task) (fst : Bool) (w : IWord) : Option Bool :=
  let pm : BitVec 3 := w.extractLsb' 80 3
  if fst || pm = 0 then some (Bool.xor ((x.kreg pm).getLsbD 0) (bitOf w 79)) else none

/-- The address of the first V-class instruction that the I-stream of task `x` issues from `pc`, within `n` slots: in
sequential order, through JMP and CALL, and through a transfer of the next bundle as the registers stand. A V-class
instruction in the bundle of a transfer issues with it (04 R92). None where another transfer, or EXIT, stands before it (02
R43; assumption 27). -/
def State.nextV (s : State) (x : Task) (fst : Bool) (pc : Word) : Nat → Option Word
  | 0 => none
  | n + 1 =>
    match slotOf pc, s.peekLine x.dom pc with
    | some i, some l =>
      let w := lineSlot l i
      let opc := (opcOf w).toNat
      let on := fst && bundleEnd (lineWord l) 5 i != i
      let acts := x.actsAt fst w
      if opcIsV opc then some pc
      else if !opcLeaves opc || acts == some false then s.nextV x on (pcAfter pc i) n
      else
        match vAfter l i with
        | some k => some (lineOf pc + BitVec.ofNat 64 (12 * k))
        | none =>
          match (if acts == some true && (fst || opc = 0x180) then x.goes pc w else none) with
          | some (some to') => s.nextV x false to' n
          | some none => s.nextV x on (pcAfter pc i) n
          | none => none
    | _, _ => none

/-- The oldest queued V-class instruction, or the next one to be issued (02 R43). -/
def State.vpcOf (s : State) (t : Nat) (ipc : Word) : Word :=
  let x := s.task t
  match x.vq with
  | e :: _ => e.pc
  | [] => (s.nextV x true ipc 320).getD (Config.nextVec (s.cycle.toNat * 2 ^ 39 + t))

end Sys2Proof.Machine
end

