-- ==== Sys2Proof/Machine/Tasks.lean ====
section
/-! DEFINITION. Tasks, frames, records, gangs and the wire unit (02 R43-R73, R434), join counters (02 R55, 10 R276),
and stopping, ending and resuming a task (21 R404-R408). -/

namespace Sys2Proof.Machine

open Sys2Proof

def cPrivilege : Nat := 0x04
def cRecord : Nat := 0x11
def cJoin : Nat := 0x10

/-! Contexts (02 R45). -/

/-- A task that holds its context (02 R45, 21 R402). -/
def Task.holds (t : Task) : Bool := t.run == .run || t.run == .exiting || t.run == .forwarded

/-- The contexts of a tile that a task or a reservation holds, or that wait for a gang's JOIN (02 R66 steps 6 and 7). -/
def State.usedCtx (s : State) (tile : Nat) : List Nat :=
  (s.tasks.filterMap fun p => if p.2.tile == tile && p.2.holds then some p.2.ctx else none)
    ++ (s.gangJoins.filterMap fun j => if j.place == tile then some j.ctx else none)
    ++ s.gangs.flatMap fun p => p.2.resv.filterMap fun r => if r.1 == tile then some r.2 else none

def State.idleCtx (s : State) (tile ctx : Nat) : Bool := decide (ctx < 4) && !(s.usedCtx tile).contains ctx

def State.freeCtx (s : State) (tile : Nat) : Option Nat := (List.range 4).find? fun c => s.idleCtx tile c

/-! Frames (01 R31, R36; 02 R63). -/

/-- The frames of a domain's pool before the firing program sets one (assumption 5). -/
def defaultPool (dom : Nat) : List Nat := (List.range 16).map fun i => 0xE000000000 / 8192 + 16 * dom + i

def State.poolOf (s : State) (dom : Nat) : List Nat := ((s.dom dom).pool).getD (defaultPool dom)

/-- Frames of a pool that no task holds and that are neither kept nor held out. -/
def State.freeFrames (s : State) (dom : Nat) : List Nat :=
  (s.poolOf dom).filter fun f => (s.task? f).isNone && !(s.frame f).kept && !(s.frame f).held

/-- The free frame a task receives: the choice is free (01 R31). -/
def State.pickFrame (s : State) (dom : Nat) : Option Nat :=
  let l := s.freeFrames dom
  match l with
  | [] => none
  | [f] => some f
  | f :: _ => some (l.getD (Config.frameChoice s.fresh % l.length) f)

/-- A frame that another domain has held is zero-filled (01 R31). -/
def State.claimFrame (s : State) (f dom : Nat) : State :=
  let x := s.frame f
  let s1 := if x.dom == dom || !s.frames.has f then s
    else (s.unpoison (f * 8192) 8192).setMem (s.mem.write (f * 8192) (List.replicate 8192 0))
  s1.setFrame f { x with dom := dom, kept := false, held := false }

/-- The words of a register in frame `t` (01 R27). -/
def frameWords (t : Nat) : Reg → List Nat
  | .s n => if n = 0 then [] else [1024 * t + 512 + n.toNat]
  | .v n => (List.range 16).map fun i => 1024 * t + 16 * n.toNat + i
  | .k n => if n = 0 then [] else [1024 * t + 576 + 2 * n.toNat, 1024 * t + 577 + 2 * n.toNat]
  | .m n => [1024 * t + 592 + n.toNat]
  | .q _ => []

/-- A poisoned word among registers that task `t` reads, in its frame store or its frame (23 R431; assumption 94). -/
def State.badReg (s : State) (t : Nat) (rs : List Reg) : Option Trap :=
  if s.poison.isEmpty then none
  else ((rs.flatMap (frameWords t)).find? s.poison.contains).map fun w =>
    { cause := cMemCheck, addr := BitVec.ofNat 64 (8 * w) }

/-- Registers that are written lose their poison. -/
def State.cleanRegs (s : State) (t : Nat) (rs : List Reg) : State :=
  if s.poison.isEmpty then s
  else
    let ws := rs.flatMap (frameWords t)
    { s with poison := s.poison.filter fun w => !ws.contains w }

/-- The frame lines that a task which begins or resumes reads, and its save extension, are homed on a die that is not lost; otherwise
it takes the home-lost machine check at its first bundle (20 R389; assumption 94). -/
def State.checkFrame (s : State) (t : Nat) : State :=
  if s.lost.isEmpty then s
  else
    let x := s.task t
    let held := (s.tile x.tile).store
    let lines := ((List.range 64).filter fun i => !held.has (lineOfFrame t i)).map fun i => 128 * lineOfFrame t i
    let ext := if x.wimage.isNone then []
      else (linesOf (saveBase x.saveext) (footprintBytes x.wfsag x.wfbat x.wfrib x.wfkn)).map (128 * ·)
    match (lines ++ ext).find? fun pa => s.lost.contains (homeDie pa) with
    | none => s
    | some pa => s.updTask t fun y =>
        { y with pend := y.pend ++ [{ code := cHomeLost, detail := 0, addr := BitVec.ofNat 64 pa, w := false, info := 0, ref := 0 }] }

/-- How a task begins (02 R62). -/
structure Start where
  code : Word
  dom : Nat
  tile : Nat
  ctx : Nat
  keep : Bool
  gang : Option Nat
  share : Nat
  clk : Clock

/-- The registers of a new task: what its frame holds, except as 02 R62 lists. Its first fetch counts as a transfer by the
instruction at CODE (assumption 82), and its count of dead letters starts at 0 (assumption 97). -/
def State.newTask (s : State) (f : Nat) (b : Start) (regs : Vector Word 64 → Vector Word 64) : State :=
  let s1 := s.claimFrame f b.dom
  let (party, s2) := s1.newParty
  let x := Task.blank.ofImage s2.mem f
  (((s2.cleanRegs f ((b.gang.map fun _ => [Reg.s 3]).getD [] ++ [.s 1, .s 2])).setTask f
    { x with
      gen := (s2.frame f).gen, dom := b.dom, tile := b.tile, ctx := b.ctx, keep := b.keep, gang := b.gang,
      share := b.share, run := .run, pc := b.code, entered := some (b.code, true), ipc := b.code, vpc := b.code
      s := regs x.s
      full := 0, mbox := [], dead := 0, reasm := [], q := .replicate 8 []
      gens := x.gens.map fun g => { g with bound := false }
      fpflags := 0, faultaddr := 0, faultinfo := 0, status := 0, wait := 0, vq := [], saved := []
      ucnt := 0, hcycle := 0, hsent := 0, hrecv := 0, hinfo := 0, party := party, clk := Clock.bump b.clk party }).dropLines f).checkFrame f

/-! Records (02 R47-R54). -/

/-- The fields of the control word (02 R47). -/
def ctlDom (c : Word) : Nat := Word.bits c 43 36
def ctlPrio (c : Word) : Nat := Word.bits c 35 32
def ctlCcnt (c : Word) : Nat := Word.bits c 31 22
def ctlTic (c : Word) : Nat := Word.bits c 21 19
def ctlCidx (c : Word) : Nat := Word.bits c 18 10
def ctlPlace (c : Word) : Nat := Word.bits c 1 0
def ctlKeep (c : Word) : Bool := bit1 c 48

def highBits (x : Word) : Bool := Word.bits x 63 55 != 0

/-- The format checks of 02 R48. CCNT outside set mode and TIC outside named-tile mode, which are to be zero there, count as
reserved fields (assumption 81). -/
def State.recordOk (s : State) (code frame ctl : Word) : Bool :=
  let last := if ctlPlace ctl = 0 && ctlCcnt ctl != 0 then ctlCidx ctl + ctlCcnt ctl - 1 else ctlCidx ctl
  Word.bits ctl 63 49 == 0 && Word.bits ctl 47 44 == 0 && Word.bits ctl 9 2 == 0 && ctlPlace ctl != 3
    && (ctlPlace ctl == 0 || ctlCcnt ctl == 0) && (ctlPlace ctl == 1 || ctlTic ctl == 0)
    && decide (last < s.numPresent) && !highBits code && !highBits frame

/-- The die whose queue a record pushed at `tile` joins (02 R49). -/
def State.recordDie (s : State) (ctl : Word) (tile : Nat) : Nat :=
  if ctlPlace ctl = 0 && ctlCcnt ctl = 0 then dieOf tile
  else dieOfClus ((s.clusAt (ctlCidx ctl)).getD 0)

/-- The room of a ring (02 R434). -/
def ringRoom (reg : Word) : Nat := if bit1 reg 63 then 2 ^ (Word.bits reg 3 0 + 6) else 0

def Die.queue (d : Die) (p : Nat) : List DRec := d.queues.getD p []
def Die.setQueue (d : Die) (p : Nat) (l : List DRec) : Die :=
  { d with queues := if l.isEmpty then d.queues.del p else d.queues.set p l }
def Die.hasRoom (d : Die) (p : Nat) : Bool := decide ((d.queue p).length < ringRoom (d.dqring.toList.getD p 0))

/-- The outcome of a push (02 R48, R49). -/
inductive Pushed where
  | format
  | privilege
  | full (die : Nat)
  | ok (s : State)

/-- Pushes a record by domain `dom` at `tile`; `hold` is the JOIN's way past a full queue. -/
def State.pushRecord (s : State) (code frame arg ctl : Word) (dom tile : Nat) (clk : Clock) (hold : Bool) : Pushed :=
  if !s.recordOk code frame ctl then .format
  else if dom != 0 && ctlDom ctl != dom then .privilege
  else
    let die := s.recordDie ctl tile
    let d := s.die die
    let r : DRec := { code := code, frame := frame, arg := arg, ctl := ctl, since := s.cycle, clk := clk }
    if d.hasRoom (ctlPrio ctl) then .ok (s.setDie die (d.setQueue (ctlPrio ctl) (d.queue (ctlPrio ctl) ++ [r])))
    else if hold && decide (d.joinHeld.length < 64) then
      let s1 := s.setDie die { d with joinHeld := d.joinHeld ++ [r] }
      .ok (if d.joinHeld.isEmpty then s1.tell (.joinHeld die) else s1)
    else .full die

/-- The clusters that a record's placement names (02 R47). -/
def State.recordClus (s : State) (ctl : Word) : List Nat :=
  if ctlPlace ctl = 0 then
    if ctlCcnt ctl = 0 then s.presentList else (s.presentList.drop (ctlCidx ctl)).take (ctlCcnt ctl)
  else ((s.clusAt (ctlCidx ctl)).map fun c => [c]).getD []

/-- Whether the tile of a context is one that a record names (02 R50). -/
def State.recordPlaces (s : State) (ctl : Word) (tile : Nat) : Bool :=
  (s.recordClus ctl).contains (clusOf tile) && (ctlPlace ctl != 1 || ctlTic ctl == ticOf tile)

/-- Whether a set-mode record goes to a cluster of a tile: no other cluster that it names with an idle context has a lower
THROTTLE (14 R348). -/
def State.lowThrottle (s : State) (ctl : Word) (tile : Nat) : Bool :=
  let l := (s.clus (clusOf tile)).throttle
  ctlPlace ctl != 0 || l == 0 || (s.recordClus ctl).all fun c =>
    decide (l ≤ (s.clus c).throttle) || (List.range 8).all fun i => (s.freeCtx (8 * c + i)).isNone

/-- Whether a record has a frame to start in (02 R50, R63): a new one from the pool, or the one it names. -/
def State.recordFrame (s : State) (r : DRec) : Bool := r.frame != 0 || (s.pickFrame (ctlDom r.ctl)).isSome

/-- A kept frame of the record's domain that holds no task (02 R63). -/
def State.keptOk (s : State) (r : DRec) : Bool :=
  let f := r.frame.toNat / 8192
  r.frame.toNat % 8192 == 0 && (s.frame f).kept && (s.frame f).dom == ctlDom r.ctl && (s.task? f).isNone

/-- The control word with the priority at dispatch (02 R53). -/
def ctlWithPrio (c : Word) (p : Nat) : Word := setBits c 35 32 p

/-- Starts a record's task on a context (02 R51, R62, R63). -/
def State.startRecord (s : State) (r : DRec) (prio tile ctx : Nat) : State :=
  let b : Start := { code := r.code, dom := ctlDom r.ctl, tile := tile, ctx := ctx, keep := ctlKeep r.ctl, gang := none,
                     share := 0, clk := r.clk }
  let regs := fun (v : Vector Word 64) => (v.set 1 r.arg)
  if r.frame = 0 then
    match s.pickFrame (ctlDom r.ctl) with
    | none => s
    | some f => (s.free.2).newTask f b fun v => (regs v).set 2 (ctlWithPrio r.ctl prio)
  else if s.keptOk r then s.newTask (r.frame.toNat / 8192) b regs
  else
    let d := s.dom (ctlDom r.ctl)
    (s.setDom (ctlDom r.ctl) { d with dispatchErr := d.dispatchErr ++ [r] }).tell (.deadRecord (ctlDom r.ctl) r.code)

/-! Gangs (02 R56-R61). -/

/-- The member tiles of a gang in ascending TILENO order (02 R56, R58). -/
def State.gangTiles (s : State) (cidx ccnt : Nat) (tmask : BitVec 8) : List Nat :=
  ((s.presentList.drop cidx).take ccnt).flatMap fun c => ((List.range 8).filter tmask.getLsbD).map fun t => 8 * c + t

/-- The tiles on which a pending gang needs a context: every member tile, or those of its stopped members
(21 R408). -/
def State.needTiles (s : State) (g : Gang) : List Nat :=
  if g.started then (g.tasks.filter fun t => !(s.task t).live).map fun t => (s.task t).tile else g.tiles

/-- The pending gangs that include a tile, oldest first (02 R60). -/
def State.pendingAt (s : State) (tile : Nat) : List (Nat × Gang) :=
  let l := s.gangs.filter fun p => p.2.pending && (s.needTiles p.2).contains tile
  l.mergeSort fun a b => decide (a.2.seq ≤ b.2.seq)

/-- The oldest pending gang at a tile that holds no reservation there. -/
def State.nextGang (s : State) (tile : Nat) : Option (Nat × Gang) :=
  (s.pendingAt tile).find? fun p => !p.2.resv.any fun r => r.1 == tile

def State.reserve (s : State) (g tile ctx : Nat) : State :=
  s.updGang g fun x => { x with resv := x.resv ++ [(tile, ctx)] }

/-- Takes one free frame for each of `n` members. -/
def State.gangFrames (s : State) (dom : Nat) : Nat → List Nat → Option (List Nat × State)
  | 0, acc => some (acc, s)
  | n + 1, acc =>
    let l := (s.freeFrames dom).filter fun f => !acc.contains f
    match l with
    | [] => none
    | f :: _ =>
      let pick := if l.length = 1 then f else l.getD (Config.frameChoice s.fresh % l.length) f
      ((s.free.2).gangFrames dom n (acc ++ [pick]))

/-! Join counters (02 R55, 10 R276). -/

/-- The checks of an indivisible read-modify-write that acquires at instance `acq`; its read of a poisoned word comes last. -/
def State.rmwCheck (s : State) (w : Who) (va : Word) (n : Nat) (acq : Option ScopeInst) : Chk :=
  let a : Acc := { va := va, n := n, al := n, wr := true, data := false, acq := acq }
  match s.check w a with
  | .ok pa t =>
    if (wordsOf pa n).any s.poison.contains then .trap { cause := cMemCheck, addr := va, w := true } else .ok pa t
  | c => c

/-- A data read of a structure by an instruction or unit, aligned to `al` (10 R247). -/
def State.readStruct (s : State) (w : Who) (va : Word) (n al : Nat) : Except Chk (Nat × State) :=
  if highBits va then .error (.trap { cause := cAddress, addr := va })
  else if va.toNat % al != 0 then .error (.trap { cause := cAlign, addr := va })
  else (s.readRange w va.toNat n).map fun p => (bytesNum p.1, p.2)

inductive Joined where
  /-- A check failed; nothing changed. -/
  | bad (c : Chk)
  /-- Done: the count after, the clock that the counter's releases give. -/
  | done (count : Word) (acq : Clock) (s : State)
  /-- The subtraction stands and the push failed (10 R276). -/
  | badPush (t : Trap) (acq : Clock) (s : State)
  /-- The subtraction stands and the push waits for a place at a die (02 R49). -/
  | held (rp : Word) (die : Nat) (acq : Clock) (s : State)

/-- JOIN by a party at a tile (02 R55, 10 R276): an acquire-release atomic at device scope. `rel` is the clock that it
releases, `fences` the release fences that its write carries. -/
def State.joinAt (s : State) (w : Who) (va : Word) (n : Word) (fences : List Rel) : Joined :=
  if highBits va then .bad (.trap { cause := cAddress, addr := va, w := true })
  else if va.toNat % 16 != 0 then .bad (.trap { cause := cAlign, addr := va, w := true })
  else
    match s.rmwCheck w va 8 (some .dev) with
    | .ok pa t =>
      let a : Acc := { va := va, n := 8, al := 8, wr := true, data := false }
      let count : Word := BitVec.ofNat 64 (s.mem.num pa 8)
      let acq := ((s.relsAt pa 8).filter fun r => r.meets .dev w.tile).foldl (fun k r => Clock.join k r.clk) []
      let rel : Rel := { clk := Clock.join w.clk acq, inst := .dev, tile := w.tile }
      if count.toNat < n.toNat then .bad (.trap { cause := cJoin, addr := va, w := true })
      else
        let left := count - n
        let put := fun (st : State) =>
          (((st.note w a pa t).dirAtomicAt (clusOf w.tile) pa 8).setRels pa 8 true (rel :: fences)).setMem
            (st.mem.write pa (natBytes left.toNat 8))
        if left != 0 || n == 0 then .done left acq (put s)
        else
          let w2 := { w with clk := rel.clk }
          match s.readStruct w2 (va + 8) 8 8 with
          | .error c => .bad c
          | .ok (ptr, s1) =>
            let rp := BitVec.ofNat 64 ptr
            match s1.readStruct w2 rp 32 32 with
            | .error c => .bad c
            | .ok (x, s2) =>
              let f := fun i => BitVec.ofNat 64 (x / 2 ^ (64 * i))
              let s3 := put s2
              match s3.pushRecord (f 0) (f 1) (f 2) (f 3) w.dom w.tile rel.clk true with
              | .format => .badPush { cause := cRecord, addr := rp } acq s3
              | .privilege => .badPush { cause := cPrivilege, addr := rp } acq s3
              | .full die => .held rp die acq s3
              | .ok s4 => .done 0 acq s4
    | c => .bad c

/-- The party of a gang's JOIN: its tile is the gang's first member tile, whose die also takes the record that a zero count
pushes with CCNT = 0 (assumption 78). -/
def GangJoin.who (g : GangJoin) : Who :=
  { dom := g.dom, tile := g.tile, party := g.party, clk := g.clk, member := none, rd := some (.join g.party) }

/-- A gang's JOIN waits: for the line of its counter or record, or for a place in the join holding buffer (02 R49, R66;
assumption 78). -/
def State.keepJoin (s : State) (g : GangJoin) (c : Chk) : State :=
  let s1 : State := { s with gangJoins := s.gangJoins ++ [g] }
  match c with
  | .locked line => s1.queueAt line (.party g.party)
  | .park comp line => s1.parkAt (.join g.party) comp line
  | _ => s1

/-- The push that a gang's JOIN has yet to make: its record is read again. -/
def State.gangPush (s : State) (g : GangJoin) (rp : Word) : State :=
  match s.readStruct g.who rp 32 32 with
  | .error (.trap t) => (s.unparkRead (.join g.party)).tell (.gangJoinFault t.cause g.joinp)
  | .error c => s.keepJoin g c
  | .ok (x, s0) =>
    let s1 := s0.servedDone (.join g.party) g.clk
    let f := fun i => BitVec.ofNat 64 (x / 2 ^ (64 * i))
    match s1.pushRecord (f 0) (f 1) (f 2) (f 3) g.dom g.tile g.clk true with
    | .format => s1.tell (.gangJoinFault cRecord g.joinp)
    | .privilege => s1.tell (.gangJoinFault cPrivilege g.joinp)
    | .full _ => s1.keepJoin g .stall
    | .ok s2 => s2

/-- One attempt at a gang's JOIN (02 R66 step 6). -/
def State.tryGangJoin (s : State) (g : GangJoin) : State :=
  match g.rp with
  | some rp => s.gangPush g rp
  | none =>
    match s.joinAt g.who g.joinp 1 [] with
    | .bad (.trap t) => (s.unparkRead (.join g.party)).tell (.gangJoinFault t.cause g.joinp)
    | .bad c => s.keepJoin g c
    | .badPush t _ s1 => (s1.servedDone (.join g.party) g.clk).tell (.gangJoinFault t.cause g.joinp)
    | .held rp _ acq s1 => (s1.servedDone (.join g.party) g.clk).keepJoin { g with rp := some rp, clk := Clock.join g.clk acq } .stall
    | .done _ _ s1 => s1.servedDone (.join g.party) g.clk

/-- The gang's JOIN on JOINP when its last member ends in context `ctx` of tile `place` (02 R66 step 6). Its accesses are
those of a new party (11 R287). -/
def State.gangJoin (s : State) (g : Gang) (place ctx : Nat) : State :=
  if g.joinp = 0 then s
  else
    let (party, s1) := s.newParty
    s1.tryGangJoin { dom := g.dom, tile := g.tiles.getD 0 0, party := party, clk := Clock.bump g.endClk party
                     joinp := g.joinp, rp := none, place := place, ctx := ctx }

/-- The waiting JOINs of gangs are tried again. -/
def State.settleJoins (s : State) : State :=
  s.gangJoins.foldl State.tryGangJoin { s with gangJoins := [] }

/-! Writes under way (08 R210). -/

/-- The lines of a group. -/
def OutGroup.lines (o : OutGroup) : List Nat := o.data.flatMap fun p => linesOf p.1 p.2.length

/-- Whether a group can be written: no MCAS has locked a line of it, none is at a home that moves, and nobody came to one
before it (07 R179, R181; 20 R388). -/
def State.groupFree (s : State) (o : OutGroup) : Bool :=
  o.lines.all fun l => !((s.dirEnt l).st matches .l _) && !s.folding (l * 128) && s.firstAt l o.who
    && !s.strays.any fun x => x.who != o.who && x.lines.contains l

/-- The bytes of a group go to memory, and it waits nowhere any more. -/
def State.putGroup (s : State) (o : OutGroup) : State :=
  (o.data.foldl (fun st p => (st.dirOwnAt o.clus p.1 p.2.length).putBytes p.1 p.2) s).unqueue o.who

/-- A group that cannot be written joins the queues of its locked lines. -/
def State.queueGroup (s : State) (o : OutGroup) : State :=
  o.lines.foldl (fun st l => if (st.dirEnt l).st matches .l _ || !st.firstAt l o.who then st.queueAt l o.who else st) s

/-- A group is written, or waits until it can be. -/
def State.writeOut (s : State) (o : OutGroup) : State :=
  if s.groupFree o then s.putGroup o else { s.queueGroup o with strays := s.strays ++ [o] }

/-- The groups that wait are written where they can be. -/
def State.settleStrays (s : State) : State :=
  if s.strays.isEmpty then s else s.strays.foldl State.writeOut { s with strays := [] }

/-! Ending a task (02 R66, R67; 21 R404). -/

/-- Every group that a task has pushed is written, and those it has read ahead are discarded. -/
def State.flushStreams (s : State) (t : Nat) : State :=
  (((s.task t).gens.toList.flatMap (·.out)).foldl State.writeOut s).updTask t fun y =>
    { y with gens := y.gens.map fun g => { g with fifo := [], out := [] } }

/-- The bound registers hold the last groups that moved through them (08 R208, R210). -/
def Task.lastGroups (t : Task) : Task :=
  t.gens.toList.foldl (fun y g => match g.last with
    | some x => if g.bound then { y with v := y.v.setIfInBounds (24 + g.vreg.toNat) x } else y
    | none => y) t

/-- Every bound register is unbound as QFREE does; at pre-emption the images of the generators keep their bindings
(08 R210). -/
def State.dropStreams (s : State) (t : Nat) (keep : Bool) : State :=
  ((s.flushStreams t).updTask t Task.lastGroups).updTask t fun y =>
    { y with gens := y.gens.map fun g => { g with bound := g.bound && keep, last := if keep then g.last else none } }

/-- The OBS fields of an MCAS with the values observed. -/
def McasRec.obsGroup (r : McasRec) (clus party : Nat) : OutGroup :=
  { clus := clus, who := .party party, data := match r.seen with
      | none => []
      | some (_, vs) => (r.entries.zip vs).map fun p => (p.1.obs, natBytes p.2 8) }

/-- An MCAS that is still acquiring gives back its locks (07 R182); one whose event has taken place completes. -/
def State.dropMcas (s : State) (t : Nat) : State :=
  match (s.task t).mcas with
  | none => s
  | some r =>
    let s1 := (r.lines.foldl (fun st l =>
      st.updDir l fun e => { e with st := if e.st == .l t then .i else e.st }) s).unqueue (.mcas t)
    (s1.writeOut (r.obsGroup (clusOf (s.task t).tile) (s.task t).party)).updTask t fun x => { x with mcas := none }

/-- The lines of a slab page (01 R39). -/
def pageLines (pa : Nat) : List Nat := (List.range 128).map fun i => alignDown pa 16384 / 128 + i

/-- A line leaves its task pin: dirty in the slab, or written back and dropped (07 R170); an orphan stays (20 R390). -/
def DirEnt.dropPin (e : DirEnt) (c : Nat) (writeBack : Bool) : DirEnt :=
  match e.st with
  | .o _ => e
  | _ => { e.calm with st := if writeBack then .i else .m c }

/-- The pins of a task are released: with the line dirty in the slab, or written back and dropped (07 R170). -/
def State.dropPins (s : State) (t : Nat) (writeBack : Bool) : State :=
  s.cluss.foldl (fun st p =>
    let mine := p.2.pins.filter fun x => x.comp == 0 && x.task == t
    if mine.isEmpty then st
    else
      (mine.foldl (fun u x => (pageLines x.pa).foldl (fun v l =>
        v.updDir l (·.dropPin p.1 writeBack)) u) st).updClus p.1
        fun c => { c with pins := c.pins.filter fun x => !(x.comp == 0 && x.task == t) }) s

/-- A task's parked reads are cancelled (13 R331), and its accesses leave the queues of locked lines. -/
def State.unpark (s : State) (t : Nat) : State :=
  let s1 : State := if s.parked.isEmpty then s
    else { s with parked := s.parked.filter fun p => match p.reader with
      | .task x _ => x != t
      | .fetch x => x != t
      | _ => true }
  if s1.lockWaits.isEmpty then s1 else s1.unqueue (.party (s.task t).party)

/-- A request of a task at the wire units is withdrawn, and an answer that its bundle has not taken is given up. -/
def State.dropWire (s : State) (t : Nat) : State :=
  if (s.task t).wire.isNone then s
  else
    ({ s with dies := s.dies.mapVal fun d => { d with wireReqs := d.wireReqs.filter fun r => r.task != t } } : State).updTask t
      fun x => { x with wire := none }

/-- The stop record (21 R406). -/
def State.stopRecord (s : State) (t : Nat) (hinfo : Word) : State :=
  s.updTask t fun x =>
    { x with hcycle := s.cycle, hsent := (s.tile x.tile).msgout, hrecv := (s.tile x.tile).msgin, hinfo := hinfo }

/-- The members of a gang that still exist. -/
def State.gangTasks (s : State) (g : Nat) : List Nat := ((s.gang? g).map (·.tasks)).getD []

/-- The entries that reissue are fetched again (08 R190); a REP's state is in its SCAL. -/
def Task.saveV (t : Task) : Task := { t with vq := t.vq.map fun e => { e with ins := none, bad := none } }

/-- Steps 5 to 7 of 02 R66, for a normal end and for one by a fatal fault (21 R404). A halted task leaves its queues, its
V-stream's entries and its wait in its frame (21 R405). The HANDLE that the frame shows holds the new GEN (assumption 96). -/
def State.endTask (s : State) (t : Nat) (fatal : Option Word) : State :=
  let sv := s.updTask t fun y => if y.live then y else y.ofImage (s.frameMem t) t
  let x := sv.task t
  let clus := clusOf x.tile
  let s1 := sv.wheelEnd t
  let s2 := ((((((s1.dropMcas t).dropStreams t false).leaveCones t).endMutexes t).dropPins t false).orphanCopies clus t).unpark t
  let s3 := (s2.dropWire t).stopRecord t (fatal.getD 0)
  let s4 := s3.updTask t fun y =>
    { y.saveV with gen := (y.gen + 1) % 4096, full := 0, mbox := [], reasm := [] }
  let s5 := s4.writeFrame t (sv.vpcOf t x.pc)
  let s6 := s5.setFrame t { gen := (x.gen + 1) % 4096, dom := x.dom, kept := x.keep && fatal.isNone, held := fatal.isSome }
  let s7 := match fatal with
    | none => s6
    | some i => s6.tell (.fatal t i)
  let s8 := s7.delTask t
  match x.gang with
  | none => s8
  | some g =>
    let s9 := s8.updGang g fun y =>
      { y with tasks := y.tasks.filter (· != t), endClk := Clock.join y.endClk x.clk, halted := y.halted || fatal.isSome }
    match s9.gang? g with
    | none => s9
    | some y =>
      if y.tasks.isEmpty && !y.pending then
        let s10 := { s9 with gangs := s9.gangs.del g
                             cluss := s9.cluss.mapVal fun c => { c with ugroups := c.ugroups.filter fun u => u.gang != g } }
        if y.halted then s10 else s10.gangJoin y x.tile x.ctx
      else s9

/-! Pre-emption (21 R405-R408). -/

/-- Reads the V-class instruction of a saved entry again (08 R190); none while the fetch must wait. A slot that no longer decodes to
a V-class instruction is the illegal-instruction trap (assumption 109). -/
def State.readEntry (s : State) (t : Nat) (pc : Word) : Except (Option Trap) (Instr × State) × State :=
  match s.fetchLine t pc with
  | .trap tr => (.error (some tr), s)
  | .stall => (.error none, s)
  | .locked line => (.error none, s.queueAt line (.party (s.task t).party))
  | .parked comp line => (.error none, s.parkAt (.fetch t) comp line)
  | .line l s1 =>
    match slotOf pc with
    | none => (.error (some { cause := 3, addr := pc, info := some 0 }), s)
    | some i =>
      let w := lineSlot l i
      let bad := fun d => (.error (some { cause := 1, detail := d, addr := pc, info := some ((opcOf w).setWidth 32) }), s)
      match decode w with
      | .ok ins => if opcIsV (opcOf w).toNat then (.ok (ins, s1), s1) else bad 1
      | .error r => bad r.detail

/-- One saved entry is read again. An entry that cannot be read keeps its failure, which is raised at its reissue. -/
def State.readOne (p : List VEntry × State) (t : Nat) (e : VEntry) : List VEntry × State :=
  if e.ins.isSome || e.bad.isSome then (p.1 ++ [e], p.2)
  else
    match p.2.readEntry t e.pc with
    | (.ok (i, s1), _) => (p.1 ++ [{ e with ins := some i }], s1)
    | (.error bad, s1) => (p.1 ++ [{ e with bad := bad }], s1)

/-- The saved entries of a task are read again at its resume or ERET (08 R190). -/
def State.readSaved (s : State) (t : Nat) : State :=
  let vq := (s.task t).vq
  if vq.all fun e => e.ins.isSome || e.bad.isSome then s
  else
    let r := vq.foldl (fun p e => State.readOne p t e) ([], s)
    r.2.updTask t fun x => { x with vq := r.1 }

/-- A bundle of the task is between its first effect and its completion: its read request is outstanding, the wire unit
has served it, or its MCAS has taken place. A stop waits for it (02 R72, 07 R182). -/
def Task.midBundle (t : Task) : Bool :=
  t.io.isSome || (t.wire.isSome && t.wire != some .asked) || t.mcas.any (·.seen.isSome)

/-- A stop of the task waits: for a bundle under way, or for the task's commands in queue 8 (02 R72, 07 R182, 09 R226). -/
def State.stopWaits (s : State) (t : Nat) : Bool := (s.task t).midBundle || s.coopHeld t

/-- Stops a task at its program point (21 R407): its state is saved in its frame, and its context is free. -/
def State.stopTask (s : State) (t : Nat) (hinfo : Word) : State :=
  let vp := s.vpcOf t (s.task t).pc
  let s1 := ((((s.dropMcas t).updTask t Task.saveV).dropStreams t true).wheelSave t encode).dropPins t true
  let s2 := ((s1.unpark t).dropWire t).stopRecord t hinfo
  let (blocks, s3) := s2.moveBlocks t
  ((s3.updTask t fun x => { x with reasm := x.reasm ++ blocks, entered := none }).leaveFrame t vp).updTask t
    fun x => { x with run := .stopped }

/-- Continues a stopped task on a context (21 R408 steps 2 to 5): its registers are read from its frame, its Wheel
state is restored, and its saved V-class instructions are read again; a deadline that has passed ends its wait. -/
def State.continueTask (s : State) (t ctx : Nat) : State :=
  let s1 := s.updTask t fun x => let y := x.ofImage (s.frameMem t) t
    { y with run := .run, ctx := ctx, hinfo := 0, status := setBit y.status 5 false }
  let s2 := (((s1.checkFrame t).takeStore t).wheelRestore t).readSaved t
  let x := s2.task t
  match x.deadline with
  | some d => if x.wake.isNone && d.toNat ≤ s.cycle.toNat then (s2.leaveCones t).updTask t fun y => y.wakeWith 1 else s2
  | none => s2

/-- Resuming tasks of a tile that wait for a context, in the order of their frames (21 R408). -/
def State.resumingAt (s : State) (tile : Nat) : Option Nat :=
  (s.tasks.find? fun p => p.2.tile == tile && p.2.run == .resuming && p.2.gang.isNone).map (·.1)

/-- GANG_START: every member tile holds a reservation, and the pool has frames; or the members of a stopped gang
continue, those of a compact when it resumes (02 R60, R62; 13 R340; 21 R408). -/
def State.gangStart (s : State) (g : Nat) : State :=
  match s.gang? g with
  | none => s
  | some x =>
    if !x.pending || !((s.needTiles x).all fun t => x.resv.any fun r => r.1 == t) then s
    else if x.started && s.compacts.any fun c => c.gang == g && c.st == .stopped then s
    else if x.started then
      let s1 := s.updGang g fun y => { y with pending := false, resv := [] }
      (x.tasks.filter fun t => !(s.task t).live).foldl (fun st t =>
        let tile := (st.task t).tile
        st.continueTask t (((x.resv.find? fun r => r.1 == tile).map (·.2)).getD 0)) s1
    else
      match s.gangFrames x.dom x.tiles.length [] with
      | none => s
      | some (fs, s1) =>
        let s2 := s1.updGang g fun y => { y with pending := false, started := true, resv := [], tasks := fs }
        ((x.tiles.zip fs).zipIdx).foldl (fun st p =>
          let b : Start := { code := x.code, dom := x.dom, tile := p.1.1
                             ctx := ((x.resv.find? fun r => r.1 == p.1.1).map (·.2)).getD 0, keep := false
                             gang := some g, share := p.2, clk := x.clk }
          st.newTask p.1.2 b fun v =>
            ((v.set 1 (BitVec.ofNat 64 p.2)).set 2 (BitVec.ofNat 64 x.tiles.length)).set 3 x.arg) s2

/-! Dispatch (02 R52, R60). -/

/-- The records that a context may receive: die, priority and record, highest priority first; within a queue, order of
entry. -/
def State.candidates (s : State) (tile : Nat) : List (Nat × Nat × DRec) :=
  (List.range 16).reverse.flatMap fun p => s.dies.filterMap fun d =>
    ((d.2.queue p).find? fun r => s.recordPlaces r.ctl tile && s.recordFrame r && s.lowThrottle r.ctl tile).map fun r => (d.1, p, r)

/-- The firing program is told once of each record that is passed over at a tile for want of a frame (02 R52). -/
def State.tellNoFrame (s : State) (tile : Nat) : State :=
  let passed := fun (r : DRec) => s.recordPlaces r.ctl tile && !s.recordFrame r && !r.told
  let l := s.dies.flatMap fun d => d.2.queues.flatMap fun q => q.2.filter passed
  if l.isEmpty then s
  else
    let told : Die → Die := fun d =>
      { d with queues := d.queues.mapVal fun q => updWhere q passed fun r => { r with told := true } }
    l.foldl (fun st r => st.tell (.noFrame (ctlDom r.ctl))) { s with dies := s.dies.mapVal told }

/-- The gang that an idle context of a tile goes to rather than to the record `top` (02 R60). -/
def State.gangFirst (s : State) (tile : Nat) (top : Option (Nat × Nat × DRec)) : Option Nat :=
  match s.nextGang tile with
  | none => none
  | some (g, x) =>
    match top with
    | none => some g
    | some (_, p, _) => if x.started || decide (p ≤ x.prio) then some g else none

/-- GANG_WAKE: the wake message reaches a member tile, which reserves a context that nothing before the gang can take
(02 R60; 21 R408). -/
def State.gangWake (s : State) (g tile : Nat) : State :=
  if (s.resumingAt tile).isSome || s.gangFirst tile (s.candidates tile).head? != some g then s
  else
    match s.freeCtx tile with
    | some c => s.reserve g tile c
    | none => s

/-- The context goes to the first record of the highest priority that has one for it; between dies the choice is free. -/
def State.dispatchRecord (s : State) (tile ctx : Nat) (cs : List (Nat × Nat × DRec)) : State :=
  match cs.head? with
  | none => s
  | some (_, p, _) =>
    let same := cs.filter fun c => c.2.1 == p
    let pick := if same.length ≤ 1 then same.head? else same[Config.dieChoice s.fresh % same.length]?
    match pick with
    | none => s
    | some (d, _, r) =>
      let s0 := if same.length ≤ 1 then s else s.free.2
      (s0.updDie d fun x => x.setQueue p ((x.queue p).erase r)).startRecord r p tile ctx

/-- RECORD_DISPATCH: an idle context goes to a resuming task, to a pending gang, or to a record (02 R52, R60;
21 R408). -/
def State.dispatch (s0 : State) (tile ctx : Nat) : State :=
  if !s0.idleCtx tile ctx || !s0.isPresent (clusOf tile) then s0
  else
    match s0.resumingAt tile with
    | some t => s0.continueTask t ctx
    | none =>
      let s := s0.tellNoFrame tile
      let cs := s.candidates tile
      match s.gangFirst tile cs.head? with
      | some g => s.reserve g tile ctx
      | none => s.dispatchRecord tile ctx cs

/-- QUEUE_AGING (02 R53): the records of a queue, and the pending gangs whose first member tile is on its die (assumption 78),
that have waited beyond the limit rise by one. -/
def State.ageQueue (s : State) (die p : Nat) : State :=
  let d := s.die die
  let limit := 1024 * Word.bits (d.dqage.toList.getD p 0) 15 0
  if 15 ≤ p || limit = 0 then s
  else
    let late : Word → Bool := fun since => decide (limit < (s.cycle - since).toNat)
    let s1 := match (d.queue p).find? fun r => late r.since with
      | none => s
      | some r =>
        if d.hasRoom (p + 1) then
          s.setDie die ((d.setQueue p ((d.queue p).erase r)).setQueue (p + 1) (d.queue (p + 1) ++ [{ r with since := s.cycle }]))
        else s
    { s1 with gangs := s1.gangs.mapVal fun g =>
        if g.pending && !g.started && g.prio == p && dieOf (g.tiles.headD 0) == die && late g.since then
          { g with prio := p + 1, since := s.cycle }
        else g }

/-- JOIN_HELD_PUSH (02 R49): the oldest held record enters its queue when there is room, and a JOIN whose record goes to
this die takes the place it leaves; of several, the one of the lowest frame number (assumption 98). -/
def State.joinHeldPush (s : State) (die : Nat) : State :=
  let d := s.die die
  let s1 : State := match d.joinHeld.find? fun r => d.hasRoom (ctlPrio r.ctl) with
    | none => s
    | some r =>
      let d1 : Die := { d with joinHeld := d.joinHeld.erase r }
      s.setDie die (d1.setQueue (ctlPrio r.ctl) (d.queue (ctlPrio r.ctl) ++ [{ r with since := s.cycle }]))
  if decide ((s1.die die).joinHeld.length < 64) then
    match s1.tasks.find? fun p => p.2.joinDie == die && (s1.viewTask p.1).waits 5 with
    | some (t, _) => s1.wake t 5 0
    | none => s1
  else s1

/-! The wire unit (02 R69-R71). -/

def cWire : Nat := 0x12

/-- Serves one request (02 R70, R71). `none` is the wire-range fault; the result of an RTAKE is (start, size). -/
def Die.wireServe (d : Die) (idx dom : Nat) (init : Option (Word × Word × BitVec 16 × BitVec 32)) :
    Option ((Word × Word) × Die) :=
  let r := d.ranges.getD idx Range.reset
  match init with
  | some (lo, hi, p, mn) =>
    if r.valid && r.dom.toNat != dom && dom != 0 then none
    else
      let fresh : Range := { lo := lo, hi := hi, next := lo, p := p, min := mn, dom := BitVec.ofNat 8 dom, valid := true }
      some ((0, 0), { d with ranges := d.ranges.set idx fresh })
  | none =>
    if !r.valid || r.dom.toNat != dom then none
    else
      let rem := r.hi.toNat - r.next.toNat
      if rem = 0 then some ((r.hi, 0), d)
      else
        let size := Nat.min rem (Nat.max r.min.toNat (divUp rem r.p.toNat))
        some ((r.next, BitVec.ofNat 64 size),
          { d with ranges := d.ranges.set idx { r with next := r.next + BitVec.ofNat 64 size } })

/-! The firing program's lists (assumption 76). -/

/-- The firing program frees a frame that is kept or held out (02 R63, 21 R404), sets a domain's pool (01 R31), clears a
range's VALID bit (02 R69), takes a domain's dispatch errors (02 R63), gives the witness bits their shadow region
(11 R301), or clears its record of a lost die (20 R391). -/
def State.firmAct (s : State) : FirmOp → State
  | .freeFrame f => if (s.task? f).isSome then s else s.setFrame f { s.frame f with kept := false, held := false }
  | .setPool d l => s.setDom d { s.dom d with pool := some l }
  | .clearRange n => s.updDie (n / 64) fun d =>
      { d with ranges := d.ranges.set (n % 64) { d.ranges.getD (n % 64) Range.reset with valid := false } }
  | .takeErrors d => s.setDom d { s.dom d with dispatchErr := [] }
  | .shadowRegion n => { s with shadow := some n, shadowTold := false }
  | .endRecovery d => { s with recover := s.recover.filter (· != d) }

end Sys2Proof.Machine
end

