-- ==== Sys2Proof/Machine/Compacts.lean ====
section
/-! DEFINITION. Compacts (13 R315-R341). The agreement between devices is by packets to and from the leader (13 R333,
assumption 26). -/

namespace Sys2Proof.Machine

open Sys2Proof

def cCompactState : Nat := 0x1B
def cCompactFormat : Nat := 0x1C

/-! Structures in memory (13 R315-R318). -/

/-- A range of a structure, read in the domain of its compact. A failure that 13 R319 names is left to the checks of Signing, with
the address; any other end of the read is SIGN's own: it waits, or takes the conflict or the pinned-range fault of 07 R161. -/
def State.tableRead (s : State) (w : Who) (va n : Nat) : Except (Word ⊕ Chk) Nat :=
  match s.readRange w va n with
  | .ok (bs, _) => .ok (bytesNum bs)
  | .error (.trap t) =>
    if t.cause = cConflict || t.cause = cPinned then .error (.inr (.trap t)) else .error (.inl t.addr)
  | .error c => .error (.inr c)

/-- The fields of a number at byte `o`, `n` bytes. -/
def numAt (x o n : Nat) : Nat := x / 2 ^ (8 * o) % 2 ^ (8 * n)

/-- The structures as they are read when the first member signs. -/
structure Tables where
  ctl : Word
  shadowA : Nat
  shadowB : Nat
  devs : List Nat
  masks : List (BitVec 512)
  pins : List PinRange
  plan : List PlanEntry
  /-- Reserved bits, alignments and limits hold. -/
  ok : Bool

/-- The plan from `va`, at most `n` entries (13 R318). -/
def State.readPlan (s : State) (w : Who) : Nat → Nat → Except (Word ⊕ Chk) (List PlanEntry × Bool)
  | 0, va => do
    let x ← s.tableRead w va 32
    return ([], numAt x 16 4 == 0)
  | n + 1, va => do
    let x ← s.tableRead w va 32
    if numAt x 16 4 = 0 then return ([], true)
    else
      let target := BitVec.ofNat 64 (numAt x 24 8)
      let e : PlanEntry :=
        { src := BitVec.ofNat 64 (numAt x 0 8), dst := BitVec.ofNat 64 (numAt x 8 8), len := numAt x 16 4,
          per := numAt x 21 1, off := numAt x 20 1, acc := numAt x 22 2 == 1, dev := twDev target, clus := twClus target }
      let (r, ok) ← s.readPlan w n (va + 32)
      return (e :: r, ok && decide (numAt x 22 2 ≤ 1) && !twBad target && twCid target == 0)

/-- Reads a compact's structures (13 R315-R318). -/
def State.readTables (s : State) (w : Who) (desc : Word) : Except (Word ⊕ Chk) Tables := do
  let d ← s.tableRead w desc.toNat 64
  let ctl := BitVec.ofNat 64 (numAt d 0 8)
  let members := numAt d 8 8
  let pinsVa := numAt d 16 8
  let planVa := numAt d 24 8
  let head ← s.tableRead w members 128
  let ents := (List.range 64).map fun i => numAt head (2 * i) 2
  let devs := ents.takeWhile (· != 0xFFFF)
  let masks ← (List.range devs.length).mapM fun k => do
    let x ← s.tableRead w (members + 128 + 64 * k) 64
    return BitVec.ofNat 512 x
  let ph ← s.tableRead w pinsVa 16
  let count := numAt ph 0 4
  let raw ← (List.range (Nat.min count 4096)).mapM fun k => s.tableRead w (pinsVa + 16 + 16 * k) 16
  let pins := raw.map fun x => { va := numAt x 0 8, pages := numAt x 8 8 % 512, clus := Nat.bits (numAt x 8 8) 24 16 : PinRange }
  let (plan, planOk) ← s.readPlan w 4096 planVa
  let sa := numAt d 32 8
  let sb := numAt d 40 8
  return {
    ctl := ctl, shadowA := sa, shadowB := sb, devs := devs, masks := masks, pins := pins, plan := plan
    ok := desc.toNat % 64 == 0 && Word.bits ctl 63 17 == 0 && numAt d 48 16 == 0 && members % 128 == 0 && pinsVa % 16 == 0
      && planVa % 32 == 0 && ((ents.drop devs.length).all (· == 0xFFFF)) && decide (1 ≤ devs.length)
      && devs.all (fun x => decide (x ≤ 1023)) && devs.eraseDups.length == devs.length
      && numAt ph 4 12 == 0 && decide (1 ≤ count) && decide (count ≤ 4096)
      && raw.all (fun x => Nat.bits (numAt x 8 8) 63 25 == 0 && Nat.bits (numAt x 8 8) 15 9 == 0)
      && pins.all (fun p => p.va % 16384 == 0 && decide (1 ≤ p.pages) && decide (p.pages ≤ 384)) && planOk }

def ctlPeriod (c : Word) : Nat := Word.bits c 15 0
def ctlEarly (c : Word) : Bool := bit1 c 16

/-! Membership (10 R279, 13 R316). -/

/-- The clusters of a mask, ascending. -/
def maskClus (m : BitVec 512) : List Nat := (List.range 512).filter m.getLsbD

/-- The clusters of a gang's tiles. -/
def Gang.cluss (g : Gang) : List Nat := (g.tiles.map clusOf).eraseDups

/-- Whether a compact's clusters on this device are exactly those of its gang, every one present: a bit of CLMASK that
names an absent cluster fails the check, as 13 R319 has it, though 01 R14 ignores such a bit of a positional mask
(assumption 77). -/
def State.gangMatches (s : State) (g : Gang) (devs : List Nat) (masks : List (BitVec 512)) : Bool :=
  match (devs.zip masks).find? fun p => p.1 == s.devnum.toNat with
  | none => false
  | some p => maskClus p.2 == g.cluss && (maskClus p.2).all s.isPresent

/-- The compact, in any state, of a gang. -/
def State.anyCompactOf (s : State) (g : Nat) : Option Compact := s.compacts.find? fun c => c.gang == g

/-- The member tasks on this device. -/
def State.members (s : State) (c : Compact) : List Nat := s.gangTasks c.gang

/-- The member clusters on this device. -/
def State.memberClus (s : State) (c : Compact) : List Nat := maskClus (s.compactMask c)

/-- The leader (13 R316). -/
def Compact.leader (c : Compact) : Nat := c.devs.headD 0

def State.otherDevs (s : State) (c : Compact) : List Nat := c.devs.filter (· != s.devnum.toNat)

/-- A device's number of a compact, by which its packets name it; 0 while it is unknown. -/
def Compact.idAt (c : Compact) (dev : Nat) : Nat := ((c.peers.find? fun p => p.1 == dev).map (·.2)).getD 0

/-- The compact that a packet names, and none once it has ended: what another device sent before is then without effect, also when
a later compact has the same compact number (13 R337). -/
def State.compactId? (s : State) (id : Nat) : Option Compact := s.compacts.find? fun c => c.id == id

/-- A control packet to another device whose number of the compact is known, which carries what happens-before it (11 R309, 13
R333). -/
def State.tellDev (s : State) (num dev : Nat) (b : Nat → PacketBody) : State :=
  match s.compact? num with
  | none => s
  | some c => if c.idAt dev = 0 then s else s.sendPacket dev (b (c.idAt dev)) 0 c.id c.clk

def State.tellDevs (s : State) (c : Compact) (b : Nat → PacketBody) : State :=
  (s.otherDevs c).foldl (fun st d => st.tellDev c.num d b) s

/-- A message to the leader. -/
def State.tellLeader (s : State) (c : Compact) (b : Nat → PacketBody) : State := s.tellDev c.num c.leader b

/-- Whether this device leads. -/
def State.leads (s : State) (c : Compact) : Bool := c.leader == s.devnum.toNat

/-- A device has reported the end of the phase. -/
def State.setReady (s : State) (num dev : Nat) : State := s.updCompact num fun k => { k with ready := insertNat k.ready dev }

/-- Every device has reported. -/
def Compact.allReady (c : Compact) : Bool := c.devs.all c.ready.contains

/-- A device has reported its part of a stop, a resume or an abort. -/
def State.ack (s : State) (num dev : Nat) : State := s.updCompact num fun k => { k with acks := insertNat k.acks dev }

/-- Every device has reported its part. -/
def Compact.allAcked (c : Compact) : Bool := c.devs.all c.acks.contains

/-- The party of the compact's own accesses. -/
def Compact.who (c : Compact) (tile : Nat) : Who := { dom := c.dom, tile := tile, party := 0, clk := c.clk, member := some c.num }

/-! The checks and refusals of Signing (13 R319, R322). -/

def rangesMeet (a n b m : Nat) : Bool := decide (a < b + m) && decide (b < a + n)

def pinBytes (p : PinRange) : Nat := 16384 * p.pages

/-- Whether two entries are both selected for some superstep. -/
def planMeet (a b : PlanEntry) : Bool :=
  if a.per = 0 ∨ b.per = 0 then true else a.off % Nat.gcd a.per b.per == b.off % Nat.gcd a.per b.per

/-- The bytes that a superstep's plans address to a cluster (13 R327). -/
def expectedFor (plan : List PlanEntry) (dev clus : Nat) (step : Word) : Nat :=
  (plan.filter fun e => e.dev == dev && e.clus == clus && planSelected e step).foldl (fun n e => n + e.len) 0

/-- expected(s) stays below 2^31 for every superstep (13 R319). -/
def expectedOk (plan : List PlanEntry) (dev clus : Nat) : Bool :=
  let mine := plan.filter fun e => e.dev == dev && e.clus == clus
  if mine.foldl (fun n e => n + e.len) 0 < 2 ^ 31 then true
  else
    let period := (mine.map (·.per)).foldl (fun n p => if p = 0 then n else Nat.lcm n p) 1
    (List.range period).all fun i => decide (expectedFor plan dev clus (BitVec.ofNat 64 i) < 2 ^ 31)

/-- An entry's own limits, and its ranges inside pin ranges (13 R319). `pinsOf` gives the ranges of a device. -/
def planEntryOk (dev : Nat) (e : PlanEntry) (devs : List Nat) (masks : List (BitVec 512)) (pinsOf : Nat → List PinRange) :
    Bool :=
  let al := if e.acc then 4 else 8
  (e.per == 0 || decide (e.off < e.per)) && e.src.toNat % al == 0 && e.dst.toNat % al == 0 && e.len % al == 0
    && (pinsOf dev).any (fun p => decide (p.va ≤ e.src.toNat) && decide (e.src.toNat + e.len ≤ p.va + (pinBytes p)))
    && (pinsOf e.dev).any (fun p => p.clus == e.clus && decide (p.va ≤ e.dst.toNat)
          && decide (e.dst.toNat + e.len ≤ p.va + (pinBytes p)))
    && (devs.zip masks).any fun m => m.1 == e.dev && m.2.getLsbD e.clus

/-- Destinations of entries selected together are disjoint, and no entry reads what another then writes (13 R319). -/
def plansDisjoint (all : List (Nat × PlanEntry)) : Bool :=
  (all.zipIdx).all fun a => (all.zipIdx).all fun b =>
    !planMeet a.1.2 b.1.2
      || ((a.2 == b.2 || a.1.2.dev != b.1.2.dev || !rangesMeet a.1.2.dst.toNat a.1.2.len b.1.2.dst.toNat b.1.2.len)
        && (a.1.1 != b.1.2.dev || !rangesMeet a.1.2.src.toNat a.1.2.len b.1.2.dst.toNat b.1.2.len))

/-- A page of device memory that the domain may write, with a swizzle code other than 7. -/
def State.pageOk (s : State) (dom va : Nat) : Bool :=
  match s.translate dom va with
  | .error _ => false
  | .ok t => t.w && t.swz != 7 && physClass t.pa == .hbm

/-- The pages of a pin range. -/
def pinVas (p : PinRange) : List Nat := (List.range p.pages).map fun i => p.va + 16384 * i

/-- The checks of 13 R319 that concern this device's ranges. -/
def State.rangesOk (s : State) (c : Compact) : Bool :=
  let mine := s.memberClus c
  let size := c.shadowBytes
  let shadow := fun a => a % 128 == 0 && (List.range (size / 16384 + 1)).all fun i => s.pageOk c.dom (a + 16384 * i)
  c.pins.all (fun p => mine.contains p.clus && (pinVas p).all (s.pageOk c.dom))
    && (c.pins.zipIdx).all (fun a => (c.pins.zipIdx).all fun b => a.2 == b.2 || !rangesMeet a.1.va (pinBytes a.1) b.1.va (pinBytes b.1))
    && ((c.shadowA == 0) == (c.shadowB == 0))
    && (c.shadowA == 0 || (shadow c.shadowA && shadow c.shadowB && !rangesMeet c.shadowA size c.shadowB size
        && c.pins.all fun p => !rangesMeet p.va (pinBytes p) c.shadowA size && !rangesMeet p.va (pinBytes p) c.shadowB size))
    && (c.period == 0 || c.shadowA != 0)

/-- The physical pages of the pin ranges: virtual page, physical page, cluster. -/
def State.pinPages (s : State) (c : Compact) : List (Nat × Nat × Nat) :=
  c.pins.flatMap fun p => (pinVas p).filterMap fun va =>
    match s.translate c.dom va with
    | .ok t => some (va, t.pa, p.clus)
    | .error _ => none

/-- A page that a compact in Signing has found free, until its Signing ends (13 R322). -/
def State.signingPage (s : State) (page : Nat) : Bool :=
  s.compacts.any fun c => c.st == .signing && c.status == some 0 && (s.pinPages c).any fun p => p.2.1 == page

/-- This device's answer at signing: 4 for a failed check of 13 R319, else a refusal of 13 R322, else 0. -/
def State.signStatus (s : State) (c : Compact) : Nat :=
  let dev := s.devnum.toNat
  let fits := fun k => decide (((s.clus k).pins.length + (c.pins.filter fun p => p.clus == k).foldl (fun n p => n + p.pages) 0) ≤ 384)
  if c.badAddr.isSome || !s.rangesOk c || !plansDisjoint (c.plan.map fun e => (dev, e)) then 4
  else if c.issued.any fun i => i.2 != c.desc then 3
  else if (s.pinPages c).any fun p => s.signingPage p.2.1 || (pageLines p.2.1).any fun l => (s.dirEnt l).pinnedBy.isSome then 2
  else if !((s.memberClus c).all fits) then 1
  else 0

/-! State changes of a signed compact. -/

/-- What precedes the conversion of this device's lines: every access that has completed at one of them, and what happens-before
it (13 R324). -/
def State.linesClk (s : State) (c : Compact) : Clock :=
  (s.pinPages c).foldl (fun k p => (pageLines p.2.1).foldl (fun k l => Clock.join k (s.lineHist.getD l [])) k) c.clk

/-- The reserved cones of a compact's member tiles (10 R280). -/
def State.reservedCones (s : State) (c : Compact) : List (Nat × Nat) :=
  (s.memberClus c).flatMap fun k => (List.range 8).map fun t => (k, 128 * t + 127)

/-- Every pending-byte counter is increased by expected(s) (13 R327). -/
def State.expectBytes (s : State) (c : Compact) (step : Word) : State :=
  (s.memberClus c).foldl (fun st k =>
    let x := st.cone k 127
    st.setCone k 127 { x with pb := x.pb + expectedFor c.allPlan s.devnum.toNat k step }) s

/-- Marks the lines of the pin ranges, and notes the pins (13 R323). -/
def State.convertPins (s : State) (c : Compact) : State :=
  (s.pinPages c).foldl (fun st p =>
    let s1 := (pageLines p.2.1).foldl (fun u l => u.updDir l fun e => { e.calm with st := .p c.num p.2.2 }) st
    s1.updClus p.2.2 fun k => { k with pins := k.pins ++ [{ pa := p.2.1, va := p.1, dom := c.dom, comp := c.num, task := 0 }] }) s

/-- The pinned bytes in pin-table order, in memory order (13 R334). -/
def State.pinnedBytes (s : State) (c : Compact) : List Byte :=
  (s.pinPages c).flatMap fun p => s.mem.read p.2.1 16384

/-- Writes bytes of the domain's virtual space as the compact controller does, without checks of pins or conflicts. -/
def State.rawWrite (s : State) (dom va : Nat) (bs : List Byte) : State :=
  (pieces va bs.length).foldl (fun st p =>
    match st.translate dom p.1 with
    | .ok t => st.putBytes t.pa ((bs.drop (p.1 - va)).take p.2)
    | .error _ => st) s

def State.rawRead (s : State) (dom va n : Nat) : List Byte :=
  (pieces va n).flatMap fun p =>
    match s.translate dom p.1 with
    | .ok t => s.mem.read t.pa p.2
    | .error _ => List.replicate p.2 0

/-- A bisque point (13 R334, R335): the pinned contents, then the header. -/
def State.writeShadow (s : State) (c : Compact) (area : Nat) (step : Word) : State :=
  (s.rawWrite c.dom (area + 128) (s.pinnedBytes c)).rawWrite c.dom area
    (natBytes step.toNat 8 ++ [1] ++ List.replicate 119 0)

/-- Entries selected for the current superstep and not yet performed, with the cluster that sends each. -/
def Compact.senderOf (c : Compact) (e : PlanEntry) : Option Nat :=
  (c.pins.find? fun p => decide (p.va ≤ e.src.toNat) && decide (e.src.toNat < p.va + (pinBytes p))).map (·.clus)

/-- The indexes of this device's entries selected for a superstep. -/
def Compact.selected (c : Compact) (step : Word) : List Nat :=
  (c.plan.zipIdx).filterMap fun p => if planSelected p.1 step then some p.2 else none

/-- A member cluster has arrived when every one of its member tasks has issued STEP or DISSOLVE (13 R326). -/
def State.clusArrived (s : State) (c : Compact) (k : Nat) : Bool :=
  (s.members c).all fun t => clusOf (s.task t).tile != k || c.stepIssued.contains t || c.dissolveIssued.contains t

def State.allArrived (s : State) (c : Compact) : Bool :=
  (s.members c).all fun t => c.stepIssued.contains t || c.dissolveIssued.contains t

/-- Whether a line is pinned for a compact, in a slab or without a holder. -/
def State.linePinned (s : State) (c : Compact) (line : Nat) : Bool :=
  match (s.dirEnt line).st with
  | .p n _ => n == c.num
  | .pNone n => n == c.num
  | _ => false

/-- No later access conflicts with one that a member task made to its pinned lines (16 R363; assumption 104). -/
def State.forgetMembers (s : State) (c : Compact) : State :=
  let mine : Wit → Bool := fun x => c.parties.any fun p => p.1 == x.party && decide (p.2 < x.epoch)
  let kept := s.wit.map fun p => if s.linePinned c (p.1 / 16) then (p.1, p.2.filter fun x => !mine x) else p
  { s with wit := kept.filter fun p => !p.2.isEmpty }

/-- Releases the pinned lines (13 R337, R338): dirty lines of their clusters, or with no holder where the compact had
stopped. -/
def State.releaseLines (s : State) (c : Compact) : State :=
  let free : DirEnt → DirEnt := fun e => match e.st with
    | .p n k => if n = c.num then { e.calm with st := .m k } else e
    | .pNone n => if n = c.num then { e.calm with st := .i } else e
    | _ => e
  let s1 := s.forgetMembers c
  { s1 with dir := s1.dir.mapVal free
            cluss := s1.cluss.mapVal fun k => { k with pins := k.pins.filter fun x => x.comp != c.num } }

/-- The reserved cones become uninitialised (10 R259). -/
def State.dropCones (s : State) (c : Compact) : State :=
  (s.reservedCones c).foldl (fun st p => st.setCone p.1 p.2 Cone.reset) s

/-- A compact ends here: its number is free, and what other devices sent for it is discarded when it arrives (13 R320, R337). -/
def State.dropCompact (s : State) (num : Nat) : State :=
  { s with compacts := s.compacts.filter (fun k => k.num != num), ended := s.ended ++ ((s.compact? num).map (·.peers)).getD [] }

/-- The members' SIGN returns a status; 4 is the compact-format fault. -/
def State.answerSign (s : State) (c : Compact) (r : Nat) : State :=
  (s.members c).foldl (fun u t => u.updTask t fun x => { x with signed := some (some (r, c.badAddr.getD 0)) }) s

/-! Abort (13 R336, R337). -/

/-- The global tile number of a task (13 R337). -/
def State.gtileOf (s : State) (t : Nat) : Nat := s.devnum.toNat * 4096 + (s.task t).tile

/-- FATAL in a stop record (21 R395). -/
def withFatal (i : Word) : Word := i ||| (1#64 <<< 44)

/-- GTILE when no task raised the cause. -/
def noTile : Nat := 0xFFFFFFFF

/-- The abort record (13 R337). -/
def State.abortRecord (_s : State) (c : Compact) : List Byte :=
  natBytes c.abortAt.toNat 8 ++ natBytes c.num 2 ++ natBytes c.reason 2 ++ natBytes c.raiser 4
    ++ natBytes ((c.committed.getD (BitVec.allOnes 64)).toNat) 8 ++ natBytes c.desc.toNat 8 ++ List.replicate 32 0

/-- A gang stops by the halt tree and its tasks end as by a fatal fault (21 R404, R405). -/
def State.haltGang (s : State) (g : Nat) (hinfo : Word) : State :=
  (s.gangTasks g).foldl (fun st t => st.endTask t (some hinfo)) (s.updGang g fun x => { x with halted := true })

/-- FAULTINFO of the compact-state fault at DISSOLVE (10 R281, 21 R395). -/
def dissolveInfo : Word := 0x1B00_0000_0000_0A42#64

/-- The members stop; where some issued STEP and others DISSOLVE, the compact-state fault is that of the DISSOLVE issuers
(13 R321). -/
def State.haltMembers (s : State) (c : Compact) (reason : Nat) (hinfo : Word) : State :=
  let mixed := if reason = 0xF004 then c.dissolveIssued.filter (s.members c).contains else []
  (mixed.foldl (fun st t =>
    (st.editTask t fun x => { x with faultinfo := dissolveInfo, faultaddr := 0 }).endTask t
      (some (dissolveInfo ||| (1#64 <<< 44)))) s).haltGang c.gang hinfo

/-- The abort of a compact is logged by the die of the tile that raised the cause, or, where no tile of this device did, by
the die of the compact's first cluster here (23 R432, assumption 59). -/
def State.logAbort (s : State) (c : Compact) (reason gtile : Nat) : State :=
  let info := BitVec.ofNat 64 reason
  if gtile / 4096 = s.devnum.toNat then s.klogTile 4 (gtile % 4096) info 0
  else s.klogDie (dieOfClus ((s.memberClus c).headD 0)) 4 info 0

/-- Step 1 of 13 R337 on this device: the member gang stops and its tasks end, plan transfers in flight are cancelled. -/
def State.abortHere (s : State) (num reason gtile : Nat) (hinfo : Word) : State :=
  match s.compact? num with
  | none => s
  | some c =>
    let s1 := s.updCompact num fun k =>
      { k with st := .aborting, reason := reason, raiser := gtile, abortAt := s.cycle, sending := [], moving := false
               ready := [], acks := [], steps := [], committed := if k.signed then k.committed else none }
    let s2 : State := { s1 with uetOut := s1.uetOut.filter fun u => match u.pkt.body with
      | .planData .. => u.ref != c.id
      | _ => true }
    (s2.logAbort c reason gtile).haltMembers c reason hinfo

/-- The shadow area that holds a step. -/
def State.shadowWith (s : State) (c : Compact) (step : Word) : Nat :=
  let b := bytesNum (s.rawRead c.dom c.shadowB 9)
  if numAt b 0 8 = step.toNat && (numAt b 8 1).testBit 0 then c.shadowB else c.shadowA

/-- Step 3 of 13 R337: the shadow with the agreed step goes into the pinned lines. -/
def State.reload (s : State) (c : Compact) (step : Word) : State :=
  let area := s.shadowWith c step
  ((s.pinPages c).zipIdx).foldl (fun (st : State) (p : (Nat × Nat × Nat) × Nat) =>
    st.putBytes p.1.2.1 (s.rawRead c.dom (area + 128 + 16384 * p.2) 16384)) s

/-- Whether a read waits for a compact. -/
def State.parkedAt (s : State) (num : Nat) : Bool := s.parked.any fun p => p.comp == num

/-- The reads parked for a compact may be served; `k` happens before them (13 R329, R337). -/
def State.openParked (s : State) (num : Nat) (k : Clock) : State :=
  { s with parked := updWhere s.parked (fun p => p.comp == num && p.clk.isNone) fun p => { p with clk := some k } }

/-- Step 5 of 13 R337: the lines and cones are released and the record is posted. -/
def State.abortEnd (s : State) (c : Compact) : State :=
  (((s.releaseLines c).dropCones c).dropCompact c.num).tell (.abortRecord (s.abortRecord c))

/-- Steps 3 and 4 of 13 R337 with the agreed step: the shadow is reloaded, and the parked reads may be served. -/
def State.abortServe (s : State) (num reason gtile : Nat) (cycle : Word) (agreed : Option Word) : State :=
  match s.compact? num with
  | none => s
  | some c =>
    let s1 := match agreed with
      | some a => if c.shadowA = 0 then s else s.reload c a
      | none => s
    (s1.updCompact num fun k =>
      { k with reason := reason, raiser := gtile, abortAt := cycle, committed := agreed, moving := true, boundaryClk := k.clk
        }).openParked num c.clk

/-- The least of the committed steps reported. -/
def agreedStep (l : List (Nat × Option Word)) : Option Word :=
  l.foldl (fun m p => match m, p.2 with
    | some a, some b => some (if b.toNat < a.toNat then b else a)
    | none, x => x
    | x, none => x) none

/-- A device's committed step is noted. -/
def State.abortStepAt (s : State) (num dev : Nat) (step : Option Word) : State :=
  s.updCompact num fun k => { k with steps := (k.steps.filter fun x => x.1 != dev) ++ [(dev, step)] }

/-- An abort goes on (13 R320, R337): the leader gives the word with the agreed step once it has every device's step; each device
reports once its parked reads are served; and with every report the leader's word ends the abort. -/
def State.abortMove (s : State) (num : Nat) : State :=
  match s.compact? num with
  | none => s
  | some c =>
    let me := s.devnum.toNat
    if c.st != .aborting then s
    else if !c.moving then
      if s.leads c && c.devs.all fun d => c.steps.any fun x => x.1 == d then
        let a := agreedStep c.steps
        (s.tellDevs c fun n => .abortGo n c.id c.reason c.raiser c.abortAt a).abortServe num c.reason c.raiser c.abortAt a
      else s
    else if s.parkedAt num then s
    else
      let s1 := if c.acks.contains me then s
        else if s.leads c then s.ack num me
        else (s.ack num me).tellLeader c fun n => .aborted n c.id
      match s1.compact? num with
      | none => s1
      | some k => if s1.leads k && k.allAcked then (s1.tellDevs k fun n => .release n false).abortEnd k else s1

/-- An abort goes on without a device that cannot be reached, or has no such compact: the leader waits for nothing more from it,
another device goes on alone (assumption 26). -/
def State.abortWithout (s : State) (num dev : Nat) : State :=
  let me := s.devnum.toNat
  match s.compact? num with
  | none => s
  | some c =>
    if s.leads c then
      (if c.steps.any fun x => x.1 == dev then s else s.abortStepAt num dev none).ack num dev
    else
      (s.updCompact num fun k =>
        let l := (k.devs.zip k.masks).filter fun p => p.1 == me
        { k with devs := l.map (·.1), masks := l.map (·.2) }).abortStepAt num me c.committed

/-! Messages of Signing (13 R319, R333; 20 R393). -/

/-- The entries of each list that one packet carries: with their devices at most 31 masks, 31 plan entries, 31 pin entries and 31
numbers, less than 4,096 bytes. -/
def signPart : Nat := 31

/-- The pieces of a message. -/
def signPieces (m : SignMsg) : Nat :=
  [m.devs.length, m.masks.length, m.plans.length, m.pins.length, m.peers.length].foldl
    (fun n k => Nat.max n (divUp k signPart)) 1

def partOf {α : Type} (i : Nat) (l : List α) : List α := (l.drop (signPart * i)).take signPart

/-- Piece `i` of a message. -/
def signPiece (m : SignMsg) (i : Nat) : SignMsg :=
  { m with devs := partOf i m.devs, masks := partOf i m.masks, plans := partOf i m.plans, pins := partOf i m.pins
           peers := partOf i m.peers }

/-- The message of pieces in order. -/
def signWhole (l : List SignMsg) : Option SignMsg :=
  (l.head?).map fun m =>
    { m with devs := l.flatMap (·.devs), masks := l.flatMap (·.masks), plans := l.flatMap (·.plans), pins := l.flatMap (·.pins)
             peers := l.flatMap (·.peers) }

/-- A message of Signing leaves, in packets of at most 4,096 bytes. -/
def State.sendSign (s : State) (dev ref : Nat) (clk : Clock) (m : SignMsg) : State :=
  let (id, s1) := s.newId
  (List.range (signPieces m)).foldl (fun st i => st.sendPacket dev (.sign id i (signPieces m) (signPiece m i)) 0 ref clk) s1

/-- An abort in Signing. -/
def Compact.abortMsg (c : Compact) (reason gtile : Nat) (cycle : Word) : SignMsg :=
  { kind := .abort reason gtile cycle, comp := c.id, devs := c.devs, masks := c.masks }

/-- What the leader does about an abort that it has begun: it tells every device, and awaits their committed steps; in Signing there
is none to agree on. -/
def State.abortLead (s : State) (num : Nat) : State :=
  match s.compact? num with
  | none => s
  | some c =>
    if c.signed then
      (s.tellDevs c fun n => .abortTok n c.id c.reason c.raiser).abortStepAt num s.devnum.toNat c.committed
    else
      ((s.otherDevs c).foldl (fun st d => st.sendSign d c.id c.clk (c.abortMsg c.reason c.raiser c.abortAt)) s).abortServe num
        c.reason c.raiser c.abortAt none

/-- An abort token for compact `num` (13 R336): the gang here stops, and the leader is told, or tells the others. -/
def State.abortCompact (s : State) (num reason gtile : Nat) (hinfo : Word) : State :=
  match s.compact? num with
  | none => s
  | some c =>
    if c.st == .aborting then s
    else
      let s1 := s.abortHere num reason gtile hinfo
      match s1.compact? num with
      | none => s1
      | some k =>
        if k.devs.isEmpty then s1.abortEnd k
        else if s.leads c then s1.abortLead num
        else if c.idAt c.leader = 0 then s1.sendSign c.leader c.id c.clk (k.abortMsg reason gtile s.cycle)
        else (s1.tellLeader k fun n => .abortTok n k.id reason gtile).tellLeader k fun n => .abortStep n k.committed

/-- A token from the leader's device finds the compact not yet aborting. -/
def State.abortToldBy (s : State) (num reason gtile : Nat) : State :=
  match s.compact? num with
  | none => s
  | some c =>
    if c.st == .aborting then s
    else
      let s1 := s.abortHere num reason gtile (1#64 <<< 44)
      match s1.compact? num with
      | none => s1
      | some k => s1.tellLeader k fun n => .abortStep n k.committed

/-! Signing (13 R319-R324, R334). -/

/-- The clusters of this device in the tables of a packet. -/
def State.mineIn (s : State) (devs : List Nat) (masks : List (BitVec 512)) : List Nat :=
  match (devs.zip masks).find? fun p => p.1 == s.devnum.toNat with
  | some p => maskClus p.2
  | none => []

/-- The compact here, not yet signed, that a packet's tables mean. -/
def State.signingIn (s : State) (devs : List Nat) (masks : List (BitVec 512)) : Option Compact :=
  let ks := s.mineIn devs masks
  s.compacts.find? fun c => !c.signed && (s.memberClus c).any ks.contains

/-- A gang here whose SIGN has failed and whose answer a device still awaits, whether or not the fault has ended its tasks (13
R319). -/
def State.failedIn (s : State) (devs : List Nat) (masks : List (BitVec 512)) (dev : Nat) : Option SignFail :=
  let ks := s.mineIn devs masks
  s.signFails.find? fun f => f.cluss.any ks.contains && !f.told.contains dev

def State.answeredFail (s : State) (f : SignFail) (dev : Nat) : State :=
  { s with signFails := updWhere s.signFails (fun x => x == f) fun x => { x with told := x.told ++ [dev] } }

/-- What a device reports of its signing: its status, with its plan and pin table (13 R319). -/
def State.signReport (s : State) (c : Compact) (status : Nat) : SignMsg :=
  { kind := .report status, comp := c.id, ctl := c.ctl, devs := c.devs, masks := c.masks
    plans := c.plan.map fun e => (s.devnum.toNat, e), pins := c.pins }

/-- A device's report reaches the leader: one whose CTL or members table differs from the leader's is status 3, or 4 where its own
checks failed (13 R319, R322). -/
def State.takeReport (s : State) (c : Compact) (dev : Nat) (clk : Clock) (m : SignMsg) (status : Nat) : State :=
  let same := m.ctl == c.ctl && m.devs == c.devs && m.masks == c.masks
  let others := fun {α : Type} (l : List (Nat × α)) => l.filter fun r => r.1 != dev
  s.updCompact c.num fun k =>
    { k with reports := others k.reports ++ [(dev, if same || status = 4 then status else 3)]
             peers := others k.peers ++ [(dev, m.comp)], others := others k.others ++ m.plans
             otherPins := others k.otherPins ++ m.pins.map fun x => (dev, x)
             otherTabs := others k.otherTabs ++ [(dev, m.devs, m.masks)], clk := Clock.join k.clk clk }

/-- An abort in Signing reaches a device: it follows the leader's, and the leader begins one for another device. One that holds no
such compact says so. -/
def State.takeSignAbort (s : State) (dev : Nat) (clk : Clock) (m : SignMsg) (reason gtile : Nat) (cycle : Word) : State :=
  match s.signingIn m.devs m.masks with
  | none => ({ s with ended := s.ended ++ [(dev, m.comp)] } : State).sendPacket dev (.aborted m.comp 0) 0 0 []
  | some c =>
    let s1 := s.updCompact c.num fun k =>
      { k with peers := (k.peers.filter fun r => r.1 != dev) ++ [(dev, m.comp)], clk := Clock.join k.clk clk }
    if s.leads c then s1.abortCompact c.num reason gtile (1#64 <<< 44)
    else if c.moving && c.st == .aborting then s1
    else (if c.st == .aborting then s1 else s1.abortHere c.num reason gtile (1#64 <<< 44)).abortServe c.num reason gtile cycle none

/-- A signing has been decided: refused, or its lines are to be converted. -/
def State.signed (s : State) (c : Compact) (status : Nat) (plans : List (Nat × PlanEntry)) (peers : List (Nat × Nat)) : State :=
  if status = 0 then
    s.updCompact c.num fun k =>
      { k with moving := true, others := plans.filter fun p => p.1 != s.devnum.toNat, peers := peers.filter fun p => p.1 != s.devnum.toNat }
  else (s.answerSign c status).dropCompact c.num

/-- A message of Signing from device `dev` is taken; none if it must wait until the gang here has signed. -/
def State.takeSign (s : State) (dev : Nat) (clk : Clock) (m : SignMsg) : Option State :=
  let found := (s.signingIn m.devs m.masks).filter fun c => c.st == .signing
  let failed := fun (k : SignKind) => (s.failedIn m.devs m.masks dev).map fun f =>
    (s.answeredFail f dev).sendSign dev 0 [] { kind := k, comp := 0, devs := m.devs, masks := m.masks }
  if s.ended.contains (dev, m.comp) then some s
  else match m.kind with
  | .abort reason gtile cycle => some (s.takeSignAbort dev clk m reason gtile cycle)
  | .result rcv status =>
    match s.compactId? rcv with
    | none => some s
    | some c =>
      if c.st == .signing && c.status.isSome && !c.moving && c.ready.isEmpty && dev == c.leader then
        some ((s.updCompact c.num fun k =>
          { k with clk := Clock.join k.clk clk, peers := (dev, m.comp) :: k.peers }).signed c status m.plans m.peers)
      else some s
  | .report status =>
    match found with
    | some c =>
      if c.status.isNone then none
      else if s.leads c && c.devs.contains dev then some (s.takeReport c dev clk m status)
      else some (s.sendSign dev c.id c.clk { kind := .result m.comp (if status = 4 then 4 else 3), comp := c.id })
    | none => failed (.result m.comp 4)
  | .ask =>
    match found with
    | some c =>
      if c.status.isNone then none
      else if m.devs == c.devs && m.masks == c.masks then some s
      else some (s.sendSign dev c.id c.clk (s.signReport c (if c.status = some 4 then 4 else 3)))
    | none => failed (.report 4)

/-- Every member task of this device has issued SIGN: the device answers. One whose structures name no other device answers its
own members; otherwise the leader asks the others and they report to it. -/
def State.signOpen (s : State) (num : Nat) : State :=
  match s.compact? num with
  | none => s
  | some c =>
    if c.st != .signing || c.status.isSome || !((s.members c).all fun t => c.issued.any fun i => i.1 == t) then s
    else if c.devs.isEmpty then
      let ks := ((s.gang? c.gang).map Gang.cluss).getD []
      let s1 := (s.answerSign c 4).dropCompact num
      { s1 with signFails := s1.signFails ++ [{ gang := c.gang, cluss := ks, told := [] }] }
    else
      let mine := s.signStatus c
      let s1 := s.updCompact num fun k => { k with status := some mine, reports := k.reports ++ [(s.devnum.toNat, mine)] }
      if s.leads c then
        (s.otherDevs c).foldl (fun st d =>
          st.sendSign d c.id c.clk { kind := .ask, comp := c.id, devs := c.devs, masks := c.masks }) s1
      else s1.sendSign c.leader c.id c.clk (s.signReport c mine)

/-- The checks of 13 R319 that concern several devices: each device's entries against its own tables and every device's pins. -/
def State.crossOk (s : State) (c : Compact) : Bool :=
  let dev := s.devnum.toNat
  let pinsOf := fun d => if d == dev then c.pins else c.otherPins.filterMap fun p => if p.1 == d then some p.2 else none
  let tabsOf := fun d => ((c.otherTabs.find? fun x => x.1 == d).map (·.2)).getD (c.devs, c.masks)
  let plans := c.plan.map (fun e => (dev, e)) ++ c.others
  plans.all (fun p => planEntryOk p.1 p.2 (tabsOf p.1).1 (tabsOf p.1).2 pinsOf) && plansDisjoint plans
    && (c.devs.zip c.masks).all fun m => (maskClus m.2).all fun k => expectedOk c.allPlan m.1 k

/-- The status that every member receives: a failed check of 13 R319 comes before a refusal of 13 R322. -/
def State.signVerdict (s : State) (c : Compact) : Nat :=
  let all := c.reports.map (·.2)
  if all.contains 4 || !s.crossOk c then 4 else if all.contains 3 then 3
  else if all.contains 2 then 2 else if all.contains 1 then 1 else 0

/-- The leader decides once every device has answered, and tells the others. -/
def State.signDecide (s : State) (num : Nat) : State :=
  match s.compact? num with
  | none => s
  | some c =>
    if c.st != .signing || c.status.isNone || c.moving || !c.ready.isEmpty || !s.leads c
        || !(c.devs.all fun d => c.reports.any fun r => r.1 == d) then s
    else
      let r := s.signVerdict c
      let plans := c.plan.map (fun e => (s.devnum.toNat, e)) ++ c.others
      let peers := (s.devnum.toNat, c.id) :: c.peers
      let s1 := (s.otherDevs c).foldl (fun st d =>
        if c.idAt d = 0 then st
        else st.sendSign d c.id c.clk { kind := .result (c.idAt d) r, comp := c.id, plans := plans, peers := peers }) s
      s1.signed c r plans peers

/-- The lines of the groups that have been pushed to streams and are still to be written (08 R210). -/
def State.pushedLines (s : State) : List Nat :=
  (s.strays ++ s.tasks.flatMap fun p => p.2.gens.toList.flatMap (·.out)).flatMap OutGroup.lines

/-- Lines that can be converted: none is locked, orphaned or at a home that moves, and every group pushed to one has been written
(07 R181; 13 R323; 20 R386, R388, R390). -/
def State.convertible (s : State) (c : Compact) : Bool :=
  let out := s.pushedLines
  (s.pinPages c).all fun p => (pageLines p.2.1).all fun l =>
    !s.folding (l * 128) && !out.contains l && match (s.dirEnt l).st with
      | .l _ => false
      | .o _ => false
      | _ => true

/-- Whether a pinned page's home is lost. -/
def State.pinLost (s : State) (c : Compact) : Bool := (s.pinPages c).any fun p => s.lost.contains (homeDie p.2.1)

/-- The lines of this device are converted and bisque point 0 is written (13 R323, R324, R334); the leader is told. A line whose
home is lost aborts the compact (13 R336, 20 R389). -/
def State.signConvert (s : State) (num : Nat) : State :=
  match s.compact? num with
  | none => s
  | some c =>
    if c.st != .signing || !c.moving then s
    else if s.pinLost c then s.abortCompact num 0xF003 noTile (withFatal 0)
    else if !s.convertible c then s
    else
      let k := s.linesClk c
      let s1 := s.convertPins c
      let s2 := if c.shadowA = 0 then s1
        else ((s1.writeShadow c c.shadowA 0).rawWrite c.dom (c.shadowB + 8) [0])
      let s3 := (s2.reservedCones c).foldl (fun st p =>
        st.setCone p.1 p.2 { Cone.reset with init := true, dom := c.dom }) s2
      let s4 := ((s3.updCompact num fun x =>
        { x with clk := k, moving := false, committed := if c.shadowA = 0 then none else some 0, latestB := false }).closeEpochs k
          ).setReady num s.devnum.toNat
      if s.leads c then s4 else s4.tellLeader c .signConverted

/-- Compute(0) begins: SIGN returns 0, and acquires every SIGN and conversion (13 R321, R324). -/
def State.signDone (s : State) (c : Compact) : State :=
  let s1 := (s.updCompact c.num fun x => { x with st := .compute, step := 0, signed := true, ready := [] }).expectBytes c 0
  (s.members c).foldl (fun st t => st.acquire t c.clk) (s1.answerSign c 0)

/-- The leader's word once every device has converted its lines. -/
def State.signRelease (s : State) (num : Nat) : State :=
  match s.compact? num with
  | none => s
  | some c =>
    if c.st != .signing || !s.leads c || !c.allReady then s
    else (s.tellDevs c fun n => .release n false).signDone c

/-- SIGNING_COMPLETE (13 R321-R324, R334): what this device can do for a signing. -/
def State.signingComplete (s : State) (num : Nat) : State :=
  (((s.signOpen num).signDecide num).signConvert num).signRelease num

/-! The superstep (13 R325-R330). -/

/-- The device enters Transfer: the remaining selected entries start (13 R321, R328). -/
def State.enterTransfer (s : State) (num : Nat) (final ckpt : Bool) : State :=
  s.updCompact num fun c =>
    { c with
      st := .transfer, final := final, ckpt := c.ckpt || ckpt, ready := []
      sending := if c.early then c.sending else c.selected c.step }

/-- The leader has a device's arrival, with whether a member there issued STEP, the tile of one that issued DISSOLVE, and
whether one issued CKPT (13 R321, R326, R335, R336). -/
def State.arriveDev (s : State) (num dev : Nat) (stepped : Bool) (dissolver : Option Nat) (ckpt : Bool) : State :=
  match s.compact? num with
  | none => s
  | some c =>
    if c.st != .compute || c.arrivals.any fun a => a.1 == dev then s
    else
      let l := c.arrivals ++ [(dev, stepped, dissolver)]
      let s1 := s.updCompact num fun k => { k with arrivals := l, ckpt := k.ckpt || ckpt }
      if !(c.devs.all fun d => l.any fun a => a.1 == d) then s1
      else
        match l.findSome? (·.2.2) with
        | some gtile =>
          if l.any (·.2.1) then s1.abortCompact num 0xF004 gtile (1#64 <<< 44)
          else (s1.tellDevs c fun n => .transferStart n true (c.ckpt || ckpt)).enterTransfer num true ckpt
        | none => (s1.tellDevs c fun n => .transferStart n false (c.ckpt || ckpt)).enterTransfer num false ckpt

/-- DEVICE_ARRIVAL_REPORT: this device has arrived once all its members have; it reports to the leader. Other devices'
reports come as packets. -/
def State.deviceArrival (s : State) (num dev : Nat) : State :=
  match s.compact? num with
  | none => s
  | some c =>
    let stepped := !c.stepIssued.isEmpty
    let dissolver := (c.dissolveIssued.head?).map s.gtileOf
    if dev != s.devnum.toNat || c.st != .compute || c.moving || !s.allArrived c || c.ready.contains dev then s
    else if s.leads c then (s.setReady num dev).arriveDev num dev stepped dissolver c.ckpt
    else (s.setReady num dev).tellLeader c fun n => .arrivalReport n c.step stepped dissolver c.ckpt

/-- Elementwise FP32 sums of an accumulate entry (13 R328). -/
def accBytes (old new : List Byte) : List Byte :=
  (List.range (new.length / 4)).flatMap fun i =>
    let x := bytesNum ((old.drop (4 * i)).take 4)
    let y := bytesNum ((new.drop (4 * i)).take 4)
    natBytes (rne32 (XV.add 0 (dec 0 x) (dec 0 y)).1).1 4

/-- Plan bytes arrive at their receiver on this device, and its counter goes down by them (13 R327, R328). -/
def State.planArrive (s : State) (c : Compact) (clus : Nat) (va : Word) (bs : List Byte) (acc : Bool) : State :=
  let data := if acc then accBytes (s.rawRead c.dom va.toNat bs.length) bs else bs
  let s1 := s.rawWrite c.dom va.toNat data
  let x := s1.cone clus 127
  s1.setCone clus 127 { x with pb := x.pb - bs.length }

/-- The plan entries in flight to other devices from a cluster: each counts against the limits of 10 R253 (13 R328). -/
def State.planInFlight (s : State) (clus : Nat) : Nat :=
  ((s.uetOut.filterMap fun u => match u.pkt.body with
    | .planData .. =>
      (s.compactId? u.ref).bind fun c => (c.plan[u.start]?).bind fun e =>
        if c.senderOf e == some clus then some (u.ref, u.start) else none
    | _ => none).eraseDups).length

/-- Copies and queue fences in flight at most for a tile and for a cluster (10 R253). -/
def tileCopies : Nat := 128
def clusCopies : Nat := 1024

/-- Whether a cluster's engine has room for one more copy. -/
def State.clusRoom (s : State) (clus : Nat) : Bool := decide ((s.clus clus).copies.length + s.planInFlight clus < clusCopies)

/-- The entries that the sending clusters' channels run next: in each cluster, in plan order (13 R328). -/
def State.channelHeads (s : State) (c : Compact) : List (Nat × PlanEntry × Nat) :=
  let l := c.sending.filterMap fun i => (c.plan[i]?).bind fun e => (c.senderOf e).map fun k => (i, e, k)
  ((l.map (·.2.2)).eraseDups).filterMap fun k => if s.clusRoom k then l.find? fun x => x.2.2 == k else none

/-- The data of a plan copy travels as flits of the compact channel (14 R348; 20 R380). -/
def State.planFlits (s : State) (src dst num : Nat) (bs : List Byte) : State :=
  (chunks 4096 bs bs.length).foldl (fun st b =>
    st.inject src dst 2 (st.freeMid src num) 0 8 ((chunks 64 b b.length).map fun x => BitVec.ofNat 512 (bytesNum x))) s

/-- The channel that runs next, and the state after a choice among several. -/
def State.nextChannel (s : State) (c : Compact) : Option (Nat × PlanEntry × Nat) × State :=
  match s.channelHeads c with
  | [] => (none, s)
  | [x] => (some x, s)
  | l => (l[Config.channelChoice s.fresh % l.length]?, s.free.2)

/-- PLAN_WRITE_PERFORMED (13 R328, R333): one sending cluster's next entry. While the compact stops, none starts. -/
def State.planWrite (s : State) (num : Nat) : State :=
  match s.compact? num with
  | none => s
  | some c =>
    if c.moving || !(c.st == .compute || c.st == .transfer) then s
    else
      match s.nextChannel c with
      | (none, _) => s
      | (some (i, e, k), s0) =>
        let bs := s.rawRead c.dom e.src.toNat e.len
        let s1 := s0.updCompact num fun x => { x with sending := x.sending.filter (· != i) }
        if e.dev = s.devnum.toNat then
          (s1.planFlits (clusEndpoint k) (clusEndpoint e.clus) num bs).planArrive c e.clus e.dst bs e.acc
        else
          let n := divUp e.len 4096
          let s2 := (List.range n).foldl (fun st j =>
            let b := (bs.drop (4096 * j)).take 4096
            (st.planFlits (clusEndpoint k) (ioEndpoint (st.sprayPort e.dev st.nextId)) num b).sendPacketAt e.dev
              (.planData (c.idAt e.dev) e.clus (e.dst + BitVec.ofNat 64 (4096 * j)) b e.acc) 0 c.id i c.clk) s1
          s2.updCompact num fun x => { x with unacked := x.unacked + n }

/-- Every counter of this device's members is zero and every entry is complete (13 R329). -/
def State.transferDone (s : State) (c : Compact) : Bool :=
  c.sending.isEmpty && c.unacked == 0 && (s.memberClus c).all fun k => (s.cone k 127).pb == 0

/-- The boundary begins on this device: parked reads may be served, and a due bisque point is written and committed (13 R329,
R332, R335). -/
def State.enterBoundary (s : State) (num : Nat) : State :=
  match s.compact? num with
  | none => s
  | some c =>
    let due := c.shadowA != 0 && ((c.period != 0 && (c.step.toNat + 1) % c.period == 0) || c.ckpt)
    let s1 := (s.updCompact num fun k => { k with st := .boundary, boundaryClk := k.clk, ready := [] }).openParked num c.clk
    if !due then s1
    else
      let area := if c.latestB then c.shadowA else c.shadowB
      (s1.writeShadow c area (c.step + 1)).updCompact num fun k =>
        { k with latestB := !k.latestB, committed := some (c.step + 1), ckpt := false }

/-- BOUNDARY_BEGIN (13 R321, R329). -/
def State.boundaryBegin (s : State) (num : Nat) : State :=
  match s.compact? num with
  | none => s
  | some c =>
    let me := s.devnum.toNat
    if c.st != .transfer then s
    else
      let s1 := if !s.transferDone c || c.ready.contains me then s
        else if s.leads c then s.setReady num me
        else (s.setReady num me).tellLeader c .boundaryReport
      match s1.compact? num with
      | none => s1
      | some k => if s1.leads k && k.allReady then (s1.tellDevs k .boundaryReport).enterBoundary num else s1

/-! Stopping (13 R339). -/

/-- Lines of a stopped compact: written home and dropped; they keep the compact's pin with no holder. -/
def State.stopLines (s : State) (c : Compact) : State :=
  let drop : DirEnt → DirEnt := fun e => match e.st with
    | .p n _ => if n = c.num then { e with st := .pNone n } else e
    | _ => e
  { s with dir := s.dir.mapVal drop
           cluss := s.cluss.mapVal fun k => { k with pins := k.pins.filter fun x => x.comp != c.num } }

/-- Every device has stopped: the compact is Stopped(s), or Stopped(s + 1) when it stopped at the end of a boundary (13 R321). -/
def State.stopEnter (s : State) (num : Nat) : State :=
  s.updCompact num fun k =>
    { k with st := .stopped, moving := false, acks := [], releaseOnResume := k.st == .boundary
             step := if k.st == .boundary then k.step + 1 else k.step }

/-- The leader has a device's report that it has stopped; with every one it gives the word. -/
def State.stopReport (s : State) (num dev : Nat) : State :=
  let s1 := s.ack num dev
  match s1.compact? num with
  | none => s1
  | some c => if c.allAcked then (s1.tellDevs c fun n => .stopTok n true).stopEnter num else s1

/-- Whether a compact has stopped: every device has (13 R320). -/
def Compact.allStopped (c : Compact) : Bool := c.st == .stopped && !c.moving

/-- A stop goes on: member tasks stop at their next bundle, and once all have and no early-send write is in flight, the lines
are dropped and the device reports. -/
def State.stopMove (s : State) (num : Nat) : State :=
  match s.compact? num with
  | none => s
  | some c =>
    let me := s.devnum.toNat
    if !c.moving || !(c.st == .compute || c.st == .boundary) || c.acks.contains me then s
    else
      let s1 := (s.members c).foldl (fun st t =>
        if (st.task t).live && !st.stopWaits t then st.stopTask t 0 else st) s
      if ((s1.members c).any fun t => (s1.task t).live) || c.unacked != 0 then s1
      else
        let s2 := s1.stopLines c
        if s.leads c then s2.stopReport num me else (s2.ack num me).tellLeader c fun n => .stopTok n true

/-- A stop that has reached this device begins in Compute (13 R321, R339); the leader tells the others. -/
def State.stopStart (s : State) (num : Nat) : State :=
  match s.compact? num with
  | none => s
  | some c =>
    if !c.stopPending || c.st != .compute || c.moving then s
    else
      (if s.leads c then s.tellDevs c fun n => .stopTok n false else s).updCompact num fun k =>
        { k with moving := true, stopPending := false, acks := [] }

/-- A stop of the compact reaches this device. It waits for Compute, or for the end of the boundary or of Dissolving (13 R321); one
that finds the compact stopped, or about to be, asks for nothing more. -/
def State.stopHere (s : State) (num : Nat) : State :=
  match s.compact? num with
  | none => s
  | some c =>
    if c.allStopped || c.st == .aborting || (c.moving && (c.st == .compute || c.st == .boundary)) then s
    else s.updCompact num fun k => { k with stopPending := true }

/-- PREEMPT.compact asks for the stop of every device: by the leader (13 R333, R339). -/
def State.askStop (s : State) (num : Nat) : State :=
  match s.compact? num with
  | none => s
  | some c => if s.leads c then s.stopHere num else s.tellLeader c fun n => .stopTok n false

/-! Release, dissolving (13 R329, R338). -/

/-- Members are released into the next superstep: every reserved cone flips (13 R329, 10 R281). -/
def State.releaseMembers (s : State) (num : Nat) (step : Word) : State :=
  match s.compact? num with
  | none => s
  | some c =>
    let s1 := (s.reservedCones c).foldl (fun st p => st.flipCone p.1 p.2 c.clk) s
    (s1.updCompact num fun k =>
      { k with st := .compute, step := step, stepIssued := [], dissolveIssued := [], arrivals := [], ready := []
               ckpt := false, releaseOnResume := false }).expectBytes c step

/-- The boundary ends on this device: it dissolves, stops (`stop`), or releases its members. -/
def State.leaveBoundary (s : State) (c : Compact) (stop : Bool) : State :=
  if c.final then s.updCompact c.num fun k => { k with st := .dissolving, ready := [], moving := false }
  else if stop then s.updCompact c.num fun k => { k with ready := [], acks := [], moving := true, stopPending := false }
  else s.releaseMembers c.num (c.step + 1)

/-- MEMBER_RELEASE (13 R321, R329, R332, R335): a device reports once its parked reads are served and its bisque point is
committed; with every report the leader gives the word, and each device follows it once no read is parked there. -/
def State.memberRelease (s : State) (num : Nat) : State :=
  match s.compact? num with
  | none => s
  | some c =>
    let me := s.devnum.toNat
    if c.st != .boundary || c.moving || s.parkedAt num then s
    else if s.leads c then
      let s1 := s.setReady num me
      match s1.compact? num with
      | none => s1
      | some k =>
        if !k.allReady then s1
        else
          let stop := k.stopPending && !k.final
          (s1.tellDevs k fun n => .release n stop).leaveBoundary k stop
    else if c.ready.contains c.leader then s.leaveBoundary c c.releaseOnResume
    else if c.ready.contains me then s
    else (s.setReady num me).tellLeader c .commitReport

/-- The leader's word reaches a device: Compute(0) begins, the boundary ends, dissolving does, or an abort. `none`: it cannot be
taken yet. -/
def State.releaseTold (s : State) (c : Compact) (stop : Bool) (finish : State → Compact → State) : Option State :=
  let me := s.devnum.toNat
  match c.st with
  | .signing => if c.ready.contains me then some (s.signDone c) else none
  | .boundary =>
    some (((s.setReady c.num c.leader).updCompact c.num fun k => { k with releaseOnResume := stop }).memberRelease c.num)
  | .dissolving => some (finish s { c with stopPending := stop })
  | .transfer => none
  | .aborting =>
    if !c.moving then some (s.abortWithout c.num c.leader)
    else if c.acks.contains me && !s.parkedAt c.num then some (s.abortEnd c) else none
  | _ => some s

/-- DISSOLVE returns 0, and acquires what the devices' packets carried (13 R338). A stop that has waited for this acts on the
member gang once every DISSOLVE has returned (13 R321). -/
def State.dissolveEnd (s : State) (c : Compact) : State :=
  let s1 := (s.members c).foldl (fun st t => (st.wake t 1 0).acquire t c.clk) s
  let s2 := (s1.dropCones c).dropCompact c.num
  if c.stopPending then s2.updGang c.gang fun g => { g with stopping := true } else s2

/-- A stop of a gang goes on: its members stop once their DISSOLVE has returned (13 R321). -/
def State.stopGang (s : State) (g : Nat) : State :=
  let s1 := (s.gangTasks g).foldl (fun st t =>
    if (st.task t).live && (st.task t).arrivedAt.isNone && !st.stopWaits t then st.stopTask t 0 else st) s
  if (s1.gangTasks g).any fun t => (s1.task t).live then s1 else s1.updGang g fun x => { x with stopping := false }

/-- DISSOLVING_COMPLETE (13 R338): this device's lines become ordinary dirty lines and it reports; with every report the
leader gives the word, and DISSOLVE returns. -/
def State.dissolvingComplete (s : State) (num : Nat) : State :=
  match s.compact? num with
  | none => s
  | some c =>
    if c.st != .dissolving then s
    else
      let s1 :=
        if c.moving then s
        else
          let k := s.linesClk c
          let s2 := (((s.releaseLines c).updCompact num fun x => { x with moving := true, clk := k }).closeEpochs k).setReady num
            s.devnum.toNat
          if s.leads c then s2 else s2.tellLeader c .dissolved
      match s1.compact? num with
      | none => s1
      | some k => if s1.leads k && k.allReady then (s1.tellDevs k fun n => .release n k.stopPending).dissolveEnd k else s1

/-! Resuming (13 R340). -/

/-- The pages of a stopped compact can be pinned again. -/
def State.canRepin (s : State) (c : Compact) : Bool :=
  (s.memberClus c).all (fun k =>
    decide ((s.clus k).pins.length + (c.pins.filter fun p => p.clus == k).foldl (fun n p => n + p.pages) 0 ≤ 384))
  && s.convertible c && (s.pinPages c).all fun p => (pageLines p.2.1).all fun l => (s.dirEnt l).st == .pNone c.num

/-- Whether the member gang holds its reservations on this device. -/
def State.gangHeld (s : State) (g : Nat) : Bool :=
  match s.gang? g with
  | none => false
  | some x => (s.needTiles x).all fun t => x.resv.any fun r => r.1 == t

/-- Every device holds its reservations and its lines: the members go on, released where the compact stopped at the end of a
boundary; the arrivals of a compact stopped in Compute stand (13 R339, R340). -/
def State.resumeGo (s : State) (num : Nat) : State :=
  match s.compact? num with
  | none => s
  | some c =>
    let s1 := s.updCompact num fun k => { k with st := .compute, moving := false, acks := [] }
    (if c.releaseOnResume then s1.releaseMembers num c.step else s1).gangStart c.gang

/-- The leader has a device's report that it can resume; with every one it gives the word. -/
def State.resumeReport (s : State) (num dev : Nat) : State :=
  let s1 := s.ack num dev
  match s1.compact? num with
  | none => s1
  | some c => if c.allAcked then (s1.tellDevs c fun n => .resumeTok n true).resumeGo num else s1

/-- A resume goes on: once the reservations are held and the pages are free, the lines are pinned again, and the device
reports. -/
def State.resumeMove (s : State) (num : Nat) : State :=
  match s.compact? num with
  | none => s
  | some c =>
    let me := s.devnum.toNat
    if c.st != .stopped || !c.moving || c.acks.contains me || !s.gangHeld c.gang || !s.canRepin c then s
    else
      let s1 := s.convertPins c
      if s.leads c then s1.resumeReport num me
      else (s1.ack num me).tellLeader c fun n => .resumeTok n true

/-- The stopped tasks of `ts` ask for contexts; one that holds its context continues (21 R402, R408). -/
def State.askResume (s : State) (ts : List Nat) : State :=
  let stopped := ts.filter fun t => (s.task t).run == .stopped
  let fwd := ts.filter fun t => (s.task t).run == .forwarded
  let gang := (ts.head?).bind fun t => (s.task t).gang
  match gang, stopped with
  | some g, _ :: _ =>
    if ((s.gang? g).map (·.pending)).getD false then s
    else
      ({ s with gangSeq := s.gangSeq + 1 } : State).updGang g fun x =>
        { x with pending := true, started := true, seq := s.gangSeq
                 resv := fwd.map fun t => ((s.task t).tile, (s.task t).ctx) }
  | _, _ =>
    let s1 := fwd.foldl (fun st t => st.continueTask t (st.task t).ctx) s
    stopped.foldl (fun st t => st.updTask t fun x => { x with run := .resuming }) s1

/-- RESUME of a stopped compact reaches this device. -/
def State.resumeHere (s : State) (num : Nat) : State :=
  match s.compact? num with
  | none => s
  | some c =>
    if !c.allStopped then s
    else
      let s1 := (s.updCompact num fun k => { k with moving := true, acks := [] }).askResume (s.members c)
      (((s1.gang? c.gang).map s1.needTiles).getD []).foldl (fun st t => st.gangWake c.gang t) s1

/-- RESUME.compact asks every device of a stopped compact, by the leader (13 R340). -/
def State.askCompactResume (s : State) (num : Nat) : State :=
  match s.compact? num with
  | none => s
  | some c =>
    if !c.allStopped then s
    else if !s.leads c then s.tellLeader c fun n => .resumeTok n false
    else (s.tellDevs c fun n => .resumeTok n false).resumeHere num

/-! Control packets (13 R333): each is acknowledged when it arrives, and takes effect in the state to which it belongs. -/

/-- A control packet of a compact finds it in the state in which it can be taken; an abort, or the compact's end, makes it
pointless. -/
def State.whenIn (s : State) (id : Nat) (ok : Compact → Bool) (f : Compact → State) : Option State :=
  match s.compactId? id with
  | none => some s
  | some c => if c.st == .aborting then some s else if ok c then some (f c) else none

/-- A device has told of its part in an abort, with its number of the compact; one that has no such compact gives 0. -/
def State.abortedAt (s : State) (c : Compact) (dev src : Nat) : State :=
  if src = 0 then s.abortWithout c.num dev
  else (s.updCompact c.num fun k => { k with peers := (k.peers.filter fun r => r.1 != dev) ++ [(dev, src)] }).ack c.num dev

/-- A packet of an abort; `none`: it cannot be taken yet. A device without the compact says so to the leader. -/
def State.performAbort (s : State) (p : Packet) : Option State :=
  let gone := fun src => some (s.sendPacket p.dev (.aborted src 0) 0 0 [])
  match p.body with
  | .abortTok id src reason gtile =>
    match s.compactId? id with
    | none => gone src
    | some c =>
      some (if p.dev == c.leader then s.abortToldBy c.num reason gtile else s.abortCompact c.num reason gtile (1#64 <<< 44))
  | .abortGo id src reason gtile cycle agreed =>
    match s.compactId? id with
    | none => gone src
    | some c =>
      if c.moving && c.st == .aborting then some s
      else
        some ((if c.st == .aborting then s else s.abortHere c.num reason gtile (1#64 <<< 44)).abortServe c.num reason gtile cycle
          agreed)
  | .abortStep id step =>
    match s.compactId? id with
    | none => some s
    | some c => if c.st == .aborting then some (s.abortStepAt c.num p.dev step) else none
  | .aborted id src =>
    match s.compactId? id with
    | none => some s
    | some c => if c.st == .aborting then some (s.abortedAt c p.dev src) else none
  | _ => some s

/-- A control packet of a compact. `none`: it cannot be taken yet. -/
def State.performCompact (s : State) (p : Packet) : Option State :=
  match p.body with
  | .signConverted id => s.whenIn id (fun c => c.st == .signing) fun c => (s.setReady c.num p.dev).signRelease c.num
  | .arrivalReport id step stepped dissolver ckpt =>
    s.whenIn id (fun c => decide (step.toNat < c.step.toNat) || (c.st == .compute && !c.moving && step == c.step)) fun c =>
      if step == c.step then s.arriveDev c.num p.dev stepped dissolver ckpt else s
  | .transferStart id final ckpt =>
    s.whenIn id (fun c => c.st == .compute && !c.moving) fun c => s.enterTransfer c.num final ckpt
  | .boundaryReport id =>
    s.whenIn id (fun c => c.st == .transfer) fun c =>
      if s.leads c then (s.setReady c.num p.dev).boundaryBegin c.num else s.enterBoundary c.num
  | .commitReport id => s.whenIn id (fun c => c.st == .boundary) fun c => (s.setReady c.num p.dev).memberRelease c.num
  | .release id stop =>
    match s.compactId? id with
    | none => some s
    | some c => s.releaseTold c stop State.dissolveEnd
  | .dissolved id => s.whenIn id (fun c => c.st == .dissolving) fun c => (s.setReady c.num p.dev).dissolvingComplete c.num
  | .stopTok id done =>
    s.whenIn id (fun _ => true) fun c =>
      if !done then s.stopHere c.num else if s.leads c then s.stopReport c.num p.dev else s.stopEnter c.num
  | .resumeTok id done =>
    s.whenIn id (fun c => done || s.leads c || c.allStopped) fun c =>
      if !done then (if s.leads c then s.askCompactResume c.num else s.resumeHere c.num)
      else if s.leads c then s.resumeReport c.num p.dev else s.resumeGo c.num
  | _ => s.performAbort p

/-- The number by which a control packet of a signed compact names it (13 R333). -/
def compactOf : PacketBody → Option Nat
  | .signConverted id | .arrivalReport id .. | .transferStart id .. | .boundaryReport id | .commitReport id | .release id _
  | .dissolved id | .abortTok id .. | .abortStep id _ | .abortGo id .. | .aborted id _ | .stopTok id _ | .resumeTok id _ => some id
  | _ => none

/-- A compact's packets carry its order from device to device (11 R309). -/
def State.compactJoin (s : State) (p : Packet) : State :=
  match (compactOf p.body).bind s.compactId? with
  | none => s
  | some c => s.updCompact c.num fun k => { k with clk := Clock.join k.clk p.clk }

/-- The message of Signing whose first piece a packet carries, once all its pieces have come. -/
def State.wholeSign (s : State) (dev msg n : Nat) : Option SignMsg :=
  let l := (List.range n).filterMap fun i => s.inbox.findSome? fun q => match q.body with
    | .sign m j _ b => if q.dev == dev && m == msg && j == i then some b else none
    | _ => none
  if l.length = n then signWhole l else none

/-- A control packet that has arrived is taken, if it can be. -/
def State.takePacket (s : State) (p : Packet) : State :=
  match p.body with
  | .sign msg i n _ =>
    match (if i = 0 then s.wholeSign p.dev msg n else none).bind (s.takeSign p.dev p.clk) with
    | none => s
    | some u =>
      { u with inbox := u.inbox.filter fun q => match q.body with
          | .sign m _ _ _ => !(q.dev == p.dev && m == msg)
          | _ => true }
  | _ =>
    match (s.compactJoin p).performCompact p with
    | none => s
    | some u => { u with inbox := u.inbox.filter fun q => !(q.dev == p.dev && q.num == p.num) }

/-- The control packets that have arrived are taken where they can be. -/
def State.takeInbox (s : State) : State := s.inbox.foldl State.takePacket s

/-- What the compacts have under way goes on. -/
def State.settleCompacts (s : State) : State :=
  let s1 := s.takeInbox
  let s2 := s1.compacts.foldl (fun st c => (((st.stopStart c.num).stopMove c.num).resumeMove c.num).abortMove c.num) s1
  s2.gangs.foldl (fun st g => if g.2.stopping then st.stopGang g.1 else st) s2

end Sys2Proof.Machine
end

