-- ==== Sys2Proof/Machine/Ops.lean ====
section
/-! DEFINITION. How an instruction's meaning ends, and the shared operations of every meaning: the registers, taking a
cause (21 R394-R404), ERET (21 R401), predicates (04 R102) and the once-per-cluster groups (04 R100, R101). -/

namespace Sys2Proof.Machine

open Sys2Proof

/-- How an instruction ends short of completion: it stalls, perhaps at the home of a line that an MCAS has locked; its read
is parked by a compact; it waits, with what the wait records; it takes a cause; `trapIn` carries what the attempt leaves
behind, and `trapKeep` is a trap after an effect that stands (10 R276). -/
inductive Stop where
  | stall
  | locked (line : Nat)
  | parked (comp line : Nat)
  | hold (s : State)
  | trap (t : Trap)
  | trapIn (s : State) (t : Trap)
  | trapKeep (s : State) (t : Trap)
  | refuse (r : Refusal)

abbrev Eff := Except Stop State

/-- A failed check as the end of an instruction. -/
def Chk.stop : Chk → Stop
  | .trap t => .trap t
  | .park n line => .parked n line
  | .locked line => .locked line
  | _ => .stall

def trapOf (cause : Nat) (addr : Word := 0) (w : Bool := false) : Stop := .trap { cause := cause, addr := addr, w := w }

/-! Registers (01 R17-R21). -/

/-- A write of s0 is discarded (01 R19). -/
def Task.setS (t : Task) (n : BitVec 6) (v : Word) : Task := if n = 0 then t else { t with s := t.s.set n.toNat v }

def Task.vreg (t : Task) (n : BitVec 5) : VReg := t.v[n.toNat]
def Task.setV (t : Task) (n : BitVec 5) (x : VReg) : Task := { t with v := t.v.set n.toNat x }

/-- A write of k0 is discarded (01 R19). -/
def Task.setK (t : Task) (n : BitVec 3) (x : KReg) : Task := if n = 0 then t else { t with k := t.k.set n.toNat x }

/-- The depth of a q register (01 R17). -/
def qDepth (n : BitVec 3) : Nat := if n.toNat < 4 then 16 else 8

def Task.qlist (t : Task) (n : BitVec 3) : List Word := t.q[n.toNat]
def Task.setQ (t : Task) (n : BitVec 3) (l : List Word) : Task := { t with q := t.q.set n.toNat l }

/-- Changes the current task. -/
def State.upd (s : State) (f : Task → Task) : State := s.updTask s.cur f

/-- Pops q`n` of the current task; an empty one stalls (01 R22). -/
def State.popQ (s : State) (n : BitVec 3) : Except Stop (Word × State) :=
  match s.me.qlist n with
  | [] => .error .stall
  | x :: r => .ok (x, s.upd fun t => t.setQ n r)

/-- Pushes into q`n`; a full one stalls (01 R22). -/
def State.pushQ (s : State) (n : BitVec 3) (v : Word) : Eff :=
  let l := s.me.qlist n
  if l.length < qDepth n then .ok (s.upd fun t => t.setQ n (l ++ [v])) else .error .stall

/-- read_src (06 R137): the value of a source field, and the state after it. -/
def State.readSrc (s : State) : Reg → Except Stop (Word × State)
  | .s n => .ok (s.me.sreg n, s)
  | .m n => .ok (s.me.mreg n, s)
  | .q n => s.popQ n
  | .v _ => .ok (0, s)
  | .k n => .ok ((s.me.kreg n).setWidth 64, s)

/-- write_dst (06 R137). A write of a k register replaces its bits [63:0] (06 R151). -/
def State.writeDst (s : State) (r : Reg) (v : Word) : Eff :=
  match r with
  | .s n => .ok (s.upd fun t => t.setS n v)
  | .m n => .ok (s.upd fun t => t.writeM n.toNat v)
  | .q n => s.pushQ n v
  | .v _ => .ok s
  | .k _ => .ok s

/-- eff_addr (07 R159): the base register plus the signed offset. -/
def State.effAddr (s : State) (a : Reg) (imm : BitVec 32) : Word :=
  (match a with
   | .s n => s.me.sreg n
   | _ => 0) + imm.signExtend 64

/-- Sets FPFLAGS bits of the current task (05 R121). -/
def State.raise (s : State) (f : Flags) : State :=
  if f = 0 then s else s.upd fun t => { t with fpflags := orFlags t.fpflags f }

/-! Branch trace (21 R416). -/

/-- LSZ of a BTCTL value; a write above 12 stores 12 (21 R396). -/
def btLsz (b : Word) : Nat := Nat.min 12 (Word.bits b 4 1)

/-- One record for a taken transfer of task `t`; it waits for a locked line beside the task (07 R181). -/
def State.traceTransfer (s : State) (t : Nat) (source target : Word) (kind : Nat) : State :=
  let x := s.task t
  let tl := s.tile x.tile
  if bit1 tl.btctl 0 && bit1 x.status 2 then
    let pa := Word.bits tl.btctl 51 12 * 4096 + 16 * (tl.btpos.toNat % 2 ^ (btLsz tl.btctl + 8))
    let bytes := wordBytes source ++ wordBytes (target ||| BitVec.ofNat 64 kind)
    let (id, s1) := s.newId
    (if physClass pa == .hbm then s1.writeOut { clus := clusOf x.tile, who := .group id, data := [(pa, bytes)] } else s).setTile
      x.tile { tl with btpos := tl.btpos + 1 }
  else s

/-! Taking a cause (21 R394-R404). -/

def stHM : Nat := 0
def stTRACE : Nat := 2
def stVDROP : Nat := 4
def stFWD : Nat := 5
def stSS : Nat := 6
def stBSKIP : Nat := 7

def Task.hm (t : Task) : Bool := bit1 t.status stHM

def cSoft : Nat := 0x1E
def cStep : Nat := 0x30
def cBreak : Nat := 0x31

/-- FAULTINFO (21 R395). -/
def Trap.info' (t : Trap) (vs : Bool) (opc : Nat) : Word :=
  BitVec.ofNat 64 (t.cause % 256 * 2 ^ 56 + t.detail % 256 * 2 ^ 48 + (if vs then 2 ^ 47 else 0)
    + (if t.w then 2 ^ 46 else 0) + (if t.pw then 2 ^ 45 else 0) + t.level % 4 * 2 ^ 42
    + (t.info.getD (BitVec.ofNat 32 opc)).toNat)

/-- A wait ends without a result: its task leaves the queues of cones, and a counted U instruction is taken back. -/
def State.endWait (s : State) (t : Nat) : State :=
  (s.leaveCones t).updTask t fun x =>
    { x.dropWait with ucnt := if waitKind x.wait = 4 then x.ucnt - 1 else x.ucnt }

/-- A fatal cause (21 R404): the compact aborts, the gang halts, or the task ends. -/
def State.fatal (s : State) (t : Nat) (hinfo : Word) (reason : Nat) : State :=
  let x := s.task t
  let s1 := (s.updTask t fun y => if y.live then y else y.ofImage (s.frameMem t) t).klogTile 3 x.tile hinfo x.faultaddr
  match x.gang with
  | none => s1.endTask t (some (withFatal hinfo))
  | some g =>
    match s1.anyCompactOf g with
    | some c => s1.abortCompact c.num reason (s1.gtileOf t) (withFatal hinfo)
    | none => s1.haltGang g (withFatal hinfo)

/-- The handler chain of a task's domain, from the entry after its own (21 R402). -/
def State.chainFrom (s : State) (t : Nat) : List Word :=
  let x := s.task t
  let l := (s.dom x.dom).hchain.toList
  let h := handleOf x.gen t
  if l.contains h then (l.dropWhile (· != h)).drop 1 else l

/-- Delivers the block to the first entry that accepts it. -/
def State.tellChain (s : State) (ws : List Word) (clk : Clock) : List Word → Option State
  | [] => none
  | h :: r =>
    if h = 0 then s.tellChain ws clk r
    else
      let (st, s1) := s.receive h none 12 ws true clk
      if st = 0 then some s1 else s.tellChain ws clk r

/-- The cluster halt of 21 R403. -/
def State.clusterHalt (s : State) (t : Nat) (info : Word) : State :=
  let x := s.task t
  let all := (s.tasks.filter fun p => clusOf p.2.tile == clusOf x.tile).map (·.1)
  all.foldl (fun st u => if (st.task? u).isSome then st.fatal u (if u = t then info else 0) 0xF001 else st)
    (s.klogTile 2 x.tile info x.faultaddr)

/-- Forwards a cause (21 R402): `info` and `addr` are FAULTINFO and FAULTADDR, `ipc` and `vpc` the program point. -/
def State.forward (s : State) (t : Nat) (info addr ipc vpc : Word) : State :=
  let s1 := ((s.updTask t fun x =>
    { x.saveV with
      ipc := ipc, vpc := vpc, pc := ipc, entered := none, faultinfo := info, faultaddr := addr
      status := setBit x.status stFWD true }).flushStreams t).stopRecord t info
  let s2 := (s1.writeFrame t vpc).updTask t fun x => { x with run := .forwarded, resident := 0 }
  let x := s2.task t
  match s2.tellChain [handleOf x.gen t, info, addr, ipc] x.clk (s2.chainFrom t) with
  | some s3 => s3
  | none => s2.clusterHalt t info

/-- The vector entry of a cause (21 R398 step 5): its read waits; it fails; it is 0; it names a handler. -/
inductive Vector' where
  | wait (c : Chk)
  | bad
  | fatal
  | go (pc : Word) (checked : Bool) (s : State)

/-- Whether a PC may be entered by a transfer, as far as its line can be read (04 R93 step 4, R95). -/
def State.mayEnter (s : State) (dom : Nat) (pc : Word) : Bool × Bool :=
  match slotOf pc with
  | none => (false, true)
  | some i =>
    match s.peekLine dom pc with
    | none => (true, false)
    | some l => (lineTgt l i, true)

def State.vectorEntry (s : State) (t cause : Nat) : Vector' :=
  let x := s.task t
  let w : Who := s.whoOf t (.task t false)
  match s.readStruct w ((s.dom x.dom).tvbase + BitVec.ofNat 64 (8 * cause)) 8 8 with
  | .error (.trap _) => .bad
  | .error c => .wait c
  | .ok (v, s1) =>
    let pc : Word := BitVec.ofNat 64 v
    if pc = 0 then .fatal
    else if highBits pc then .bad
    else
      let (ok, checked) := s1.mayEnter x.dom pc
      if ok then .go pc checked s1 else .bad

/-- A task gives up what it waits for when it takes a cause (10 R247, 07 R182): the reads parked and the requests not yet
answered are made again. -/
def State.quit (s : State) (t : Nat) : State := ((s.endWait t).unpark t).dropWire t

/-- The frame lines that hold the entries of a V-stream queue (08 R190). -/
def queueLines (n : Nat) : List Nat := (List.range ((n + 7) / 8)).map (56 + ·)

/-- The cause is entered: the V-stream's entries are saved in the frame, and fetch goes on at `pc` (21 R398 steps 3 to 5). -/
def State.enterHandler (s : State) (t : Nat) (tr : Trap) (info ipc vpc pc : Word) (checked : Bool) : State :=
  ((queueLines (s.task t).vq.length).foldl (fun st l => st.frameLine t l) s |>.updTask t fun x =>
    { x with
      saved := x.vq, vq := [], ipc := ipc, vpc := vpc, faultinfo := info, faultaddr := tr.addr
      status := setBit x.status stHM true
      run := if x.run == .exiting then .run else x.run
      pc := pc, entered := if checked then none else some (ipc, true) }).traceTransfer t ipc pc 3

/-- A cause taken by task `t` at `ipc` (21 R398, R402, R404). A cause of the V-stream waits while a bundle of the task stands
between its effect and its completion, and any cause while the read of its vector entry must wait. -/
def State.takeCause (s : State) (t : Nat) (tr : Trap) (vs : Bool) (opc : Nat) (ipc : Word) : Except Chk State :=
  let x := s.task t
  if vs && (x.midBundle || x.wake.isSome) then .error .stall
  else
    let info := tr.info' vs opc
    let vpc := s.vpcOf t ipc
    let s0 := s.dropMcas t
    let log := fun (st : State) => if 0x38 ≤ tr.cause then st.klogTile 1 x.tile info tr.addr else st
    let forward := .ok ((log (s0.quit t)).forward t info tr.addr ipc vpc)
    if 0x30 ≤ tr.cause || x.hm then forward
    else
      match s0.vectorEntry t tr.cause with
      | .wait c => .error c
      | .bad => forward
      | .fatal =>
        .ok (((s0.quit t).updTask t fun x =>
          { x with faultinfo := info, faultaddr := tr.addr, pc := ipc, ipc := ipc, vpc := vpc }).fatal t info 0xF001)
      | .go pc checked s1 => .ok ((s1.quit t).enterHandler t tr info ipc vpc pc checked)

/-- The read of a vector entry waits at the line's home. -/
def State.waitEntry (s : State) (t : Nat) : Chk → State
  | .park comp line => s.parkAt (.task t false) comp line
  | .locked line => s.queueAt line (.party (s.task t).party)
  | _ => s

/-- A cause taken outside an instruction; the task waits where it cannot be taken yet. -/
def State.tryCause (s : State) (t : Nat) (tr : Trap) (opc : Nat) : State :=
  match s.takeCause t tr false opc (s.task t).pc with
  | .ok s1 => s1
  | .error c => s.waitEntry t c

/-- IPC at a cause raised by the instruction being run (21 R394, R399): its bundle's first slot; after TRAPI the next
PC; for the V-stream the first bundle not issued. -/
def State.trapIpc (s : State) (tr : Trap) : Word :=
  if s.cx.vs then s.me.pc else if tr.cause = cSoft then s.cx.next else s.cx.first

def State.setFate (s : State) (f : Fate) : State := { s with cx := { s.cx with fate := f } }

/-- The current instruction takes a cause on state `s`. `s0` is the state to go back to while the cause cannot be taken. -/
def State.takeTrap (s s0 : State) (tr : Trap) (keep : Bool) (opc : Nat) : State :=
  match s.takeCause s.cur tr s.cx.vs opc (s.trapIpc tr) with
  | .error c => (s0.waitEntry s.cur c).setFate .stalled
  | .ok s1 => { s1 with cx := { s1.cx with fate := .trapped, trap := some (tr, keep) } }

/-- The current task's q registers as another state has them: an instruction that waits or traps has popped nothing. -/
def State.keepQ (s s0 : State) : State := s.upd fun t => { t with q := s0.me.q }

/-- The outcome of an instruction of opcode `opc` begun on `s`. -/
def State.finish (s : State) (opc : Nat) : Eff → Host.Outcome State Fault Refusal
  | .ok s1 => .next (s1.setFate .done)
  | .error .stall => .next (s.setFate .stalled)
  | .error (.locked line) => .next ((s.queueAt line (.party s.me.party)).setFate .stalled)
  | .error (.parked n line) => .next ((s.parkAt (.task s.cur s.cx.vs) n line).setFate .stalled)
  | .error (.hold s1) => .next ((s1.keepQ s).setFate .held)
  | .error (.trap t) => .next (s.takeTrap s t false opc)
  | .error (.trapIn s1 t) => .next ((s1.keepQ s).takeTrap s t false opc)
  | .error (.trapKeep s1 t) => .next (s1.takeTrap s t true opc)
  | .error (.refuse r) => .refused r

/-! Asynchronous causes (21 R400) and ERET (21 R401). -/

/-- The pending cause that is taken first: the lowest code, and of equal ones the oldest. A task that drains after
EXIT takes none but a Wheel-command fault (02 R66). -/
def Task.nextPend (t : Task) : Option Pend :=
  let l := if t.run == .exiting then t.pend.filter fun p => p.code == cWheel else t.pend
  if t.hm then none
  else l.foldl (fun m p => match m with
    | none => some p
    | some x => if p.code < x.code then some p else some x) none

/-- An issued bundle of the task waits for the answer to a request, or has had its wait ended: it completes before the next
bundle, and before a cause that is taken there. -/
def Task.busy (t : Task) : Bool := t.wake.isSome || t.wire.isSome || t.io.isSome

/-- CFSTAT's read-only fields for a faulted copy (21 R396). -/
def Copy.cfstat (c : Copy) : Word :=
  BitVec.ofNat 64 (((maskQueues c.mask).headD 0) * 65536 + c.fcause % 256 * 256 + (if c.fwrite then 128 else 0))

/-- ASYNC_CAUSE_TAKEN: the pending cause of lowest code is taken at the task's next bundle. -/
def State.takeAsync (s : State) (t : Nat) : State :=
  match s.task? t with
  | none => s
  | some x =>
    if !x.live || x.busy then s
    else
      match x.nextPend with
      | none => s
      | some p =>
        let copy := if p.code = cCopy then s.copy? (clusOf x.tile) p.ref else none
        let s1 := s.updTask t fun y => { y with pend := y.pend.erase p }
        let s2 := match copy with
          | none => s1
          | some c => s1.updTask t fun y =>
              { y with cfdesc := c.desc, cfdone := BitVec.ofNat 64 c.done, cfstat := c.cfstat, cfcopy := some c.id }
        let tr : Trap := { cause := p.code, detail := p.detail, addr := p.addr, w := p.w, pw := p.pw, info := some p.info }
        match s2.takeCause t tr false 0 x.pc with
        | .ok s3 => s3
        | .error c => s.waitEntry t c

/-- ERET (21 R401, R413). The target is the recorded program point, which needs only to name a slot (04 R95). What the handler
has done and acquired happens before the reissued instructions (11 R300), which are read again (08 R190). -/
def State.eret (s : State) : Eff :=
  let t := s.me
  if !t.hm then .error (trapOf cPrivilege)
  else if !t.vq.isEmpty then .error .stall
  else if highBits t.ipc then .error (trapOf cAddress t.ipc)
  else
    let keep := if bit1 t.status stVDROP then t.saved.drop 1 else t.saved
    let s1 := s.upd fun x =>
      { x with
        status := setBit (setBit x.status stHM false) stVDROP false
        vq := keep.map fun e => { e with ins := none, bad := none, clk := Clock.join e.clk x.clk }
        gens := x.gens.map fun g => { g with fifo := [] }
        saved := [], cfcopy := none, cfstat := setBit x.cfstat 31 false }
    let s2 := match t.cfcopy with
      | none => s1
      | some id => s1.copyRetry s.myClus id (bit1 t.cfstat 31)
    let s3 := (s2.wheelRestart s.cur).readSaved s.cur
    .ok { s3 with cx := { s3.cx with target := some (t.ipc, 3) } }

/-- Whether the current task exists and holds its registers in the tile. -/
def State.ready (s : State) : Bool :=
  match s.task? s.cur with
  | some t => t.live
  | none => false

/-! Predicates (04 R102). -/

def State.pred (s : State) (hd : Hd) : KReg :=
  let k := s.me.kreg hd.pm
  if hd.pn then ~~~k else k

/-! Once-per-cluster groups (04 R100, R101). -/

/-- The posted values: the s registers among the destinations, s0 apart, with what they now hold. -/
def Task.posted (t : Task) (ds : List Reg) : List (BitVec 6 × Word) :=
  ds.filterMap fun r => match r with
    | .s n => if n = 0 then none else some (n, t.sreg n)
    | _ => none

/-- The number of the current task's U instruction: a waiting one has been counted. -/
def Task.unum (t : Task) : Nat := if waitKind t.wait = 4 then t.ucnt - 1 else t.ucnt

/-- The U instruction of the current task completes. -/
def Task.countU (t : Task) : Task := if waitKind t.wait = 4 then { t.dropWait with } else { t with ucnt := t.ucnt + 1 }

/-- Enters the wait of kind 4. -/
def Task.waitU (t : Task) (d : Reg) : Task :=
  let code := match d with
    | .s n => n.toNat
    | _ => 0
  { t with ucnt := t.unum + 1, wait := BitVec.ofNat 64 (code * 256 + 4), wake := none }

def State.ugroup? (s : State) (clus gang n : Nat) : Option UGroup :=
  (s.clus clus).ugroups.find? fun u => u.gang == gang && u.n == n

def State.updGroup (s : State) (clus gang n : Nat) (f : UGroup → UGroup) : State :=
  s.updClus clus fun k => { k with ugroups := updWhere k.ugroups (fun u => u.gang == gang && u.n == n) f }

/-- The members of a gang in a cluster. -/
def State.gangIn (s : State) (gang clus : Nat) : List Nat :=
  (s.gangTasks gang).filter fun t => clusOf (s.task t).tile == clus

/-- Groups that every member has passed are forgotten. -/
def State.pruneGroups (s : State) (clus gang : Nat) : State :=
  let left := (s.gangIn gang clus).map fun t => (s.viewTask t).unum
  s.updClus clus fun k =>
    { k with ugroups := k.ugroups.filter fun u => u.gang != gang || !u.done || left.any fun n => decide (n ≤ u.n) }

/-- Whether U = 1 is permitted (04 R100): a member of a gang whose TMASK is 0xFF. -/
def State.uniAllowed (s : State) : Bool :=
  match s.me.gang with
  | none => false
  | some g => ((s.gang? g).map (·.tmask)) == some 0xFF

/-- The executing member's group as it stands at its instruction. -/
def State.withGroup (s : State) (clus gang n : Nat) : State :=
  if (s.ugroup? clus gang n).isSome then s
  else s.updClus clus fun k =>
    { k with ugroups := k.ugroups ++ [{ gang := gang, n := n, exec := s.cur, pc := s.cx.pc, done := false, cmd := none,
                                        regs := [], clk := [] }] }

/-- The executing member has completed its U instruction: its result is posted with what happened before it. -/
def State.uniDone (s : State) (clus gang n : Nat) (ds : List Reg) : State :=
  let s1 := s.withGroup clus gang n
  let (k, s2) := s1.release s1.cur
  ((s2.updGroup clus gang n fun u => { u with done := true, regs := s.me.posted ds, clk := k }).upd
    Task.countU).pruneGroups clus gang

/-- The executing member runs the body; its result is noted for the others. A Wheel command's group completes with the
command (09 R227), and what happened before it happens before the others' completion (11 R293). -/
def State.uniRun (s : State) (clus gang n : Nat) (wheel : Bool) (ds : List Reg) (body : State → Eff) : Eff :=
  let note := fun (st : State) => st.withGroup clus gang n
  match body s with
  | .ok s1 =>
    if wheel then
      let (k, s2) := (note s1).release s.cur
      .error (.hold ((s2.updGroup clus gang n fun u => { u with cmd := some s.nextId, clk := k }).upd fun t => t.waitU .zero))
    else .ok (s1.uniDone clus gang n ds)
  | .error (.hold s1) => .error (.hold (note s1))
  | .error (.trap t) => .error (.trapIn (note s) t)
  | .error (.trapIn s1 t) => .error (.trapIn (note s1) t)
  | .error (.trapKeep s1 t) => .error (.trapKeep (note s1) t)
  | .error e => .error e

/-- A member receives a completed group's result (04 R101, 11 R293). -/
def State.uniTake (s : State) (t : Nat) (u : UGroup) : State :=
  (s.editTask t fun x => (u.regs.foldl (fun y p => y.setS p.1 p.2) x)).acquire t u.clk

/-- A U-prefixed instruction (04 R101). -/
def State.uni (s : State) (wheel : Bool) (ds : List Reg) (body : State → Eff) : Eff :=
  match s.me.gang with
  | none => .error (.trap { cause := 1, detail := 4, addr := s.cx.pc })
  | some g =>
    if !s.uniAllowed then .error (.trap { cause := 1, detail := 4, addr := s.cx.pc })
    else
      let clus := s.myClus
      let n := s.me.unum
      match s.ugroup? clus g n with
      | none => s.uniRun clus g n wheel ds body
      | some u =>
        if u.exec = s.cur then
          if u.done then .ok ((s.upd Task.countU).pruneGroups clus g)
          else if u.cmd.isSome then .error (.hold (s.upd fun t => t.waitU .zero))
          else s.uniRun clus g n wheel ds body
        else if u.pc != s.cx.pc then .error (.trap { cause := 1, detail := 7, addr := s.cx.pc })
        else if u.done then
          if waitKind s.me.wait = 4 && s.me.wake.isSome then .ok ((s.upd Task.countU).pruneGroups clus g)
          else .ok (((s.uniTake s.cur u).upd Task.countU).pruneGroups clus g)
        else .error (.hold (s.upd fun t => t.waitU (ds.headD .zero)))

/-- U_GROUP_COMPLETE (04 R101): the results are posted to the members that wait, running or stopped. -/
def State.uniPost (s : State) (clus gang n : Nat) : State :=
  match s.ugroup? clus gang n with
  | none => s
  | some u =>
    if !u.done then s
    else
      (s.gangIn gang clus).foldl (fun st t =>
        let x := st.viewTask t
        if t != u.exec && x.unum == n && x.waits 4 then (st.uniTake t u).wake t 4 0 else st) s

/-! Running an instruction. -/

/-- An I- or X-class instruction (04 R102): with a false predicate it has no effect. `ds` are the registers that a U
group posts. -/
def State.runI (s : State) (opc : Nat) (hd : Hd) (ds : List Reg) (body : State → Eff) : Host.Outcome State Fault Refusal :=
  if !s.ready then .fault .noTask
  else if !(s.pred hd).getLsbD 0 then .next (s.setFate .done)
  else if hd.u then s.finish opc (s.uni false ds body)
  else s.finish opc (body s)

/-- A Wheel command (09 R218, R227). -/
def State.runWheel (s : State) (opc : Nat) (hd : Hd) (body : State → Eff) : Host.Outcome State Fault Refusal :=
  if !s.ready then .fault .noTask
  else if !(s.pred hd).getLsbD 0 then .next (s.setFate .done)
  else if hd.u then s.finish opc (s.uni true [] body)
  else s.finish opc (body s)

/-- A V-class instruction: its predicate is its mask (04 R102). -/
def State.runV (s : State) (opc : Nat) (body : State → Eff) : Host.Outcome State Fault Refusal :=
  if !s.ready then .fault .noTask else s.finish opc (body s)

/-- An event of another agent. -/
def State.event (s : State) : Host.Outcome State Fault Refusal := .next s

end Sys2Proof.Machine
end

