-- ==== Sys2Proof/Machine/Operands.lean ====
section
/-! DEFINITION. Operand forms: the integer types of the scalar family (06 R137), operand b (06 R137), memory operands
(07 R159), and the registers that an instruction word names (04 R91, 06 R136). -/

namespace Sys2Proof.Machine

open Sys2Proof

/-! Scalar types (06 R137). -/

def tyW (ty : BitVec 3) : Nat := 8 * 2 ^ (ty.toNat % 4)
def tySigned (ty : BitVec 3) : Bool := ty.toNat < 4

/-- The low w bits of `x` as a value of the type. -/
def ival (x : Word) (ty : BitVec 3) : Int :=
  if tySigned ty then sint (tyW ty) x.toNat else (x.toNat % 2 ^ tyW ty : Nat)

/-- The 64-bit register image of an integer in the type. -/
def tfit (r : Int) (ty : BitVec 3) : Word :=
  let w := tyW ty
  if tySigned ty then sext64 w (wrap w r) else BitVec.ofNat 64 (wrap w r)

/-- An immediate operand b. -/
def scImmB (f : ScF) : Word := if f.iz then f.imm.setWidth 64 else f.imm.signExtend 64

/-- opnd_b (06 R137). -/
def State.opndB (s : State) (f : ScF) : Except Stop (Word × State) :=
  if f.ib then .ok (scImmB f, s) else s.readSrc f.b

/-- `d := g a` for a source a. -/
def State.un (s : State) (f : ScF) (g : Word → Word) : Eff := do
  let (a, s1) ← s.readSrc f.a
  s1.writeDst f.d (g a)

/-- `d := g a b` for sources a and operand b. -/
def State.bin (s : State) (f : ScF) (g : Word → Word → Word) : Eff := do
  let (a, s1) ← s.readSrc f.a
  let (b, s2) ← s1.opndB f
  s2.writeDst f.d (g a b)

/-- `d := g a b c`. -/
def State.tern (s : State) (f : ScF) (g : Word → Word → Word → Word) : Eff := do
  let (a, s1) ← s.readSrc f.a
  let (b, s2) ← s1.opndB f
  let (c, s3) ← s2.readSrc f.c
  s3.writeDst f.d (g a b c)

/-- A scalar instruction. -/
def State.runSc (s : State) (opc : Nat) (f : ScF) (body : State → Eff) : Host.Outcome State Fault Refusal :=
  s.runI opc f.hd [f.d] body

/-! Register use of a word (04 R91, 06 R136, 08 R188). -/

/-- The class of an opcode (04 R105). -/
inductive Pipe where
  | i | x | v
  deriving DecidableEq, Repr

def opcPipe (opc : Nat) : Pipe :=
  if opcIsV opc then .v
  else if (0x200 ≤ opc && opc < 0x3C0) || (0x800 ≤ opc && opc < 0xA00) || (0xA40 ≤ opc && opc < 0xA80) then .x
  else .i

/-- The destination fields of a word: d; c of LDP and RTAKE; a of CALL and LOOP (04 R91, R97). -/
def wordDsts (w : IWord) : List Reg :=
  let opc := (opcOf w).toNat
  if opc = 0x180 then (if bitOf w 64 then [regAt w 72] else [])
  else if opc = 0x181 then [regAt w 72]
  else if 0x180 ≤ opc && opc < 0x1C0 then []
  else if opc = 0x202 || opc = 0xA04 then [regAt w 72, regAt w 51]
  else [regAt w 72]

/-- The second registers of the pairs of a 16-byte CAS, its result first (07 R175). -/
def wordPair (w : IWord) : List Reg :=
  if (opcOf w).toNat = 0x340 && (w.extractLsb' 48 3).toNat == 4 then
    [72, 58, 51].filterMap fun i => match regAt w i with
      | .s n => some (.s (n + 1))
      | _ => none
  else []

/-- The source fields of a word. -/
def wordSrcs (w : IWord) : List Reg :=
  let opc := (opcOf w).toNat
  if opc = 0x141 then []
  else if opc = 0x180 then []
  else if opc = 0x181 then [regAt w 72]
  else if 0x180 ≤ opc && opc < 0x1C0 then [regAt w 72, regAt w 65]
  else if opc = 0x202 || opc = 0xA04 then [regAt w 65, regAt w 58]
  else [regAt w 65, regAt w 58, regAt w 51]

/-- The mask register of a word's predicate. -/
def wordPm (w : IWord) : BitVec 3 := w.extractLsb' 80 3

/-- The k registers, k0 apart, that a word reads or writes (08 R189). -/
def wordKs (w : IWord) : List (BitVec 3) :=
  ((wordDsts w ++ wordSrcs w).filterMap fun r => match r with
    | .k n => some n
    | _ => none).filter (· != 0) ++ if wordPm w = 0 then [] else [wordPm w]

/-- How often a word names q`n`. -/
def wordQ (w : IWord) (n : BitVec 3) : Nat := ((wordDsts w ++ wordSrcs w).filter fun r => r == .q n).length

/-- The s register that a V-class word names, if any (08 R188). -/
def wordScalar (w : IWord) : Option (BitVec 6) :=
  (wordSrcs w).findSome? fun r => match r with
    | .s n => if n = 0 then none else some n
    | _ => none

end Sys2Proof.Machine
end

