-- ==== Sys2Proof/Machine/Spans.lean ====
section
/-! DEFINITION. What an instruction must wait for: earlier accesses of its own task that overlap it or that its release
orders (07 R162, R183; 08 R206, R210; 09 R221). A wait may be longer than the manual asks (assumption 32). -/

namespace Sys2Proof.Machine

open Sys2Proof

/-! The V-stream's queue (08 R190, R211-R213). -/

/-- The word of a queued V-class instruction. -/
def VEntry.word (e : VEntry) : Option IWord := e.ins.bind encode

/-- L and S of a REP (08 R211). -/
def repLen (f : VecF) : Nat := f.imm.toNat % 16 + 1
def repStride (f : VecF) : Nat := f.imm.toNat / 16 % 32

def repBegun (sc : Word) : Bool := bit1 sc 37
def repPosn (sc : Word) : Nat := Word.bits sc 36 33
def repPass (sc : Word) : Nat := Word.bits sc 32 17
def repCount (sc : Word) : Nat := Word.bits sc 16 0
def repState (posn pass count : Nat) : Word :=
  BitVec.ofNat 64 (2 ^ 37 + posn % 16 * 2 ^ 33 + pass % 65536 * 2 ^ 17 + count % 2 ^ 17)

/-- A range of addresses that an instruction accesses. -/
structure Span where
  lo : Nat
  n : Nat
  wr : Bool
  deriving DecidableEq, Repr

/-- Two ranges overlap. -/
def Span.meets (a b : Span) : Bool := decide (a.lo < b.lo + b.n) && decide (b.lo < a.lo + a.n)

/-- The parts of a range in pages of 64 KiB. -/
def Span.parts (a : Span) : List (Nat × Nat) :=
  (List.range ((a.lo % 65536 + a.n + 65535) / 65536)).map fun i =>
    let lo := Nat.max a.lo (alignDown a.lo 65536 + 65536 * i)
    (lo, Nat.min (a.lo + a.n) (alignDown a.lo 65536 + 65536 * (i + 1)) - lo)

/-- Two ranges of a domain share a byte, by the same address or through two mappings of it (01 R38, 07 R162). -/
def State.spansMeet (s : State) (dom : Nat) (a b : Span) : Bool :=
  a.meets b || a.parts.any fun p => b.parts.any fun q =>
    match s.translate dom p.1, s.translate dom q.1 with
    | .ok t, .ok u => decide (t.pa < u.pa + q.2) && decide (u.pa < t.pa + p.2)
    | _, _ => false

/-- Element `e` of `w` bits. -/
def vecEl (v : VReg) (w e : Nat) : Nat := (v.extractLsb' (w * e) w).toNat

/-- active(e): the mask bit of the byte that holds the element's bit 0. -/
def elActive (p : KReg) (w e : Nat) : Bool := p.getLsbD (w * e / 8)

/-- The address of a V-class memory operand (08 R205). -/
def vecAddr (f : VecF) (scal : Word) : Word := scal + f.imm.signExtend 64

/-- The elements of a VLDS: imm32 is the stride. -/
def strideSpans (f : VecF) (scal : Word) : List Span :=
  (List.range (fmtCap f.fc)).map fun e =>
    { lo := (scal + BitVec.ofNat 64 e * f.imm.signExtend 64).toNat, n := fmtWidth f.fc / 8, wr := false }

/-- The address of an indexed element: the index is a signed integer of the element's width. -/
def idxAddr (f : VecF) (scal : Word) (idx : VReg) (e : Nat) : Word :=
  let w := fmtWidth f.fc
  vecAddr f scal + BitVec.ofInt 64 (sint w (vecEl idx w e) * ((2 ^ f.x.toNat : Nat) : Int))

/-- A task's value of a predicate. -/
def Task.predOf (t : Task) (hd : Hd) : KReg :=
  let k := t.kreg hd.pm
  if hd.pn then ~~~k else k

/-- The place in the queue, the fields and the SCAL of the REP that captures the entry at `i`. -/
def Task.repOf (t : Task) (i : Nat) : Option (Nat × VecF × Word) :=
  (List.range i).findSome? fun j => t.vq[j]?.bind fun e => match e.ins with
    | some (.rep f) => if i ≤ j + repLen f then some (j, f, e.scal) else none
    | _ => none

/-- The rotations in which the entry at `i` is still to execute: those of the passes left of the REP that captures it, every
one where its count is not known yet. -/
def Task.rotations (t : Task) (i : Nat) : List Nat :=
  match t.repOf i with
  | none => [0]
  | some (j, f, sc) =>
    let begun := repBegun sc
    let lo := if begun then repPass sc + (if i < j + 1 + repPosn sc then 1 else 0) else 0
    let hi := if begun then repCount sc else match f.a with
      | .s _ => sc.toNat
      | _ => lo + 24
    ((List.range (Nat.min 24 (hi - lo))).map fun p => (lo + p) * repStride f % 24).eraseDups

/-- A register field under a rotation (08 R212). -/
def rotReg (rot : Nat) : Reg → Reg
  | .v n => if n.toNat < 24 then .v (BitVec.ofNat 5 ((n.toNat + rot) % 24)) else .v n
  | r => r

/-- The entries that may execute before the entry at `i`: those ahead of it, and the others that the same REP captures. -/
def Task.beforeEntry (t : Task) (i : Nat) : List Nat :=
  match t.repOf i with
  | none => List.range i
  | some (j, f, _) => List.range (Nat.min t.vq.length (j + 1 + repLen f))

/-- Whether an entry that may execute before the entry at `i` writes register `r`. -/
def Task.writtenBefore (t : Task) (i : Nat) (r : Reg) : Bool :=
  (t.beforeEntry i).any fun j => match t.vq[j]? with
    | none => false
    | some e => match e.word with
      | none => e.bad.isNone
      | some w => (t.rotations j).any fun rot => (wordDsts w).any fun d => rotReg rot d == r

/-- The elements of a VGATH or VSCAT at place `i` of the queue, in every rotation, once nothing before it writes its index or
its mask. -/
def Task.indexed (t : Task) (i : Nat) (f : VecF) (scal : Word) (wr : Bool) : Option (List Span) :=
  ((t.rotations i).mapM fun rot =>
    match rotReg rot f.b with
    | .v n =>
      if decide (24 ≤ n.toNat) || t.writtenBefore i (.v n) || (f.hd.pm != 0 && t.writtenBefore i (.k f.hd.pm)) then none
      else
        let w := fmtWidth f.fc
        some (((List.range (fmtCap f.fc)).filter (elActive (t.predOf f.hd) w)).map fun e =>
          ({ lo := (idxAddr f scal (t.vreg n) e).toNat, n := w / 8, wr := wr } : Span))
    | _ => none).map List.flatten

/-- The memory accesses of the entry at place `i` of a task's V-stream queue; none where they are not known yet: an address
depends on a register that an entry before it is still to write. Groups of bound streams are not among them (08 R210). -/
def Task.entrySpans (t : Task) (i : Nat) : Option (List Span) :=
  match t.vq[i]? with
  | none => some []
  | some e => match e.ins with
    | none => if e.bad.isSome then some [] else none
    | some (.vld f) => some [{ lo := (vecAddr f e.scal).toNat, n := 128, wr := false }]
    | some (.vst f) => some [{ lo := (vecAddr f e.scal).toNat, n := 128, wr := true }]
    | some (.vlds f) => some (strideSpans f e.scal)
    | some (.agen f) => some [{ lo := (vecAddr f e.scal).toNat, n := 48, wr := false }]
    | some (.vgath f) => t.indexed i f e.scal false
    | some (.vscat f) => t.indexed i f e.scal true
    | _ => some []

/-- Whether an instruction accesses memory by itself (08 R205, R208). -/
def vecMem : Instr → Bool
  | .vld _ | .vst _ | .vlds _ | .vgath _ | .vscat _ | .agen _ | .qbind _ | .qfree _ => true
  | _ => false

/-- Whether an entry names a register that a stream may be bound to, or is a memory instruction. -/
def VEntry.touchesMemory (e : VEntry) : Bool :=
  match e.ins with
  | none => true
  | some i => vecMem i || match e.word with
    | none => true
    | some w => (wordDsts w ++ wordSrcs w).any fun r => match r with
        | .v n => decide (24 ≤ n.toNat)
        | _ => false

/-- The bytes of a view (09 R229). -/
def viewSpan (base : Word) (l : Layout) (w v c : Nat) (wr : Bool) : Span :=
  { lo := base.toNat, n := (Nat.max v c) * l.pitch + 2 ^ (l.lm + l.ln) * w / 8 + divUp (Nat.max v c * w) 8, wr := wr }

/-- The memory accesses of a Wheel command (09 R231-R245). -/
def WCmd.spans (c : WCmd) : List Span :=
  match c.ins with
  | .mldb f => [viewSpan c.a (layoutOf c.b) (fmtWidth f.fmtb.toNat) (wheelK f.fmta.toNat * opNp c.c) 256 false]
  | .mldc f => [{ lo := c.a.toNat, n := 10240 * Nat.bits f.imm.toNat 12 8, wr := false }]
  | .mlds f => [{ lo := c.a.toNat, n := f.imm.toNat % 65536 + 1, wr := false }]
  | .mma f => [viewSpan c.a (layoutOf c.b) (fmtWidth f.fmta.toNat) (opM c.c) (wheelK f.fmta.toNat * opNp c.c) false]
  | .mmac f => [viewSpan c.a (layoutOf c.b) (fmtWidth f.fmta.toNat) (opM c.c) (wheelK f.fmta.toNat * opNp c.c) false]
  | .mspl _ => [{ lo := c.a.toNat, n := 96 * opM c.c, wr := false }]
  | .msdx _ => [{ lo := c.a.toNat, n := 96 * opM c.c, wr := false }, { lo := c.b.toNat, n := 1024 * opM c.c, wr := false }]
  | .msgrad _ =>
    [{ lo := c.a.toNat, n := 96 * opM c.c, wr := false }, { lo := c.b.toNat, n := 1024 * opM c.c, wr := false }]
  | .mrd f => [viewSpan c.a (layoutOf c.b) (fmtWidth f.fmta.toNat) (opM c.c) (mrdNcol f) true]
  | .mwr f => [viewSpan c.a (layoutOf c.b) (fmtWidth f.fmta.toNat) (opM c.c) (mrdNcol f) false]
  | .mstat _ => [{ lo := c.a.toNat, n := 64, wr := true }]
  | _ => []

/-- The memory accesses still to come of the current task's Wheel commands; a command makes them when it starts. The commands of
a queue that a fault of this task has stopped run after its handler (09 R223). -/
def State.wheelSpans (s : State) : List Span :=
  (routerClus s.myClus).flatMap fun k =>
    let w := s.wheel k
    w.queues.flatMap fun q =>
      if w.stopped.contains q.1 && s.me.wstop.contains q.1 then []
      else (q.2.filter fun c => c.task == s.cur && c.begun.isEmpty).flatMap WCmd.spans

/-- A V-class instruction's access waits for overlapping Wheel commands. -/
def State.wheelWait (s : State) (a : Span) : Bool := s.wheelSpans.any (s.spansMeet s.me.dom a)

/-- An earlier V-class access of the task overlaps `a`. One whose addresses are not known yet counts (assumption 89). -/
def State.vecWait (s : State) (a : Span) : Bool :=
  let t := s.me
  (List.range t.vq.length).any fun i => match t.entrySpans i with
    | some l => l.any (s.spansMeet t.dom a)
    | none => true

/-- An I-stream access waits for earlier accesses of the task that overlap it (07 R162). -/
def State.spanWait (s : State) (lo : Word) (n : Nat) (wr : Bool) : Bool :=
  let a : Span := { lo := lo.toNat, n := n, wr := wr }
  s.wheelWait a || s.vecWait a

/-- Earlier V-class memory accesses of the task have been performed, and the groups that it pushed are written. -/
def Task.vDone (t : Task) : Bool := t.vq.all (fun e => !e.touchesMemory) && t.gens.all fun g => g.out.isEmpty

/-- A release waits for every earlier memory access of the task (08 R210, 09 R221). -/
def State.relWait (s : State) : Bool := !s.me.vDone || !s.wheelSpans.isEmpty || !s.strays.isEmpty

/-- A release by task `t` waits. -/
def State.relWaitOf (s : State) (t : Nat) : Bool := ({ s with cur := t } : State).relWait

/-- Stalls while a condition holds. -/
def stallIf (b : Bool) : Except Stop Unit := if b then .error .stall else .ok ()

end Sys2Proof.Machine
end

