-- ==== Sys2Proof/Machine/Issue.lean ====
section
/-! DEFINITION. One turn of a tile (02 R43-R46; 04 R90-R94; 08 R188-R190, R211-R213; 21 R398-R400, R414, R415): a task's
bundle, or the head of its V-stream. `ex` is the meaning of one instruction. -/

namespace Sys2Proof.Machine

open Sys2Proof

abbrev Exec := Instr → State → Host.Outcome State Fault Refusal

/-- A slot of a bundle: its PC, word and instruction. -/
structure BSlot where
  pc : Word
  word : IWord
  ins : Instr

def BSlot.opc (x : BSlot) : Nat := (opcOf x.word).toNat

/-! Readiness (02 R45, 06 R136, 08 R189). -/

/-- Whether an earlier V-class instruction of the task uses k`n`. One that is still to be read again may; one that cannot
be read does not, since it and those after it have no effect (08 R189, R190). -/
def Task.kBusy (t : Task) (n : BitVec 3) : Bool :=
  t.vq.any fun e => match e.word with
    | none => e.bad.isNone
    | some w => (wordKs w).contains n

/-- Whether a register awaits the status of a send (07 R162, 10 R271). -/
def Task.awaits (t : Task) (r : Reg) : Bool := r != .s 0 && t.sends.any fun x => x.2.1 == r

/-- Whether a bundle's I- and X-class instructions have their entries and room (06 R136), the k registers they name
(08 R189), and its V-class instruction a place (08 R190). SRD and SWR of FPFLAGS wait for the V-class instructions that the
queue holds, not for one in their own bundle, which enters the queue after them (assumption 85). -/
def Task.bundleReady (t : Task) (ix v : List BSlot) : Bool :=
  ([0, 1, 2, 3] : List (BitVec 3)).all (fun n =>
      decide ((t.qlist n).length + (ix.map fun x => wordQ x.word n).foldl (· + ·) 0 ≤ qDepth n))
    && ([4, 5, 6, 7] : List (BitVec 3)).all (fun n =>
      decide ((ix.map fun x => wordQ x.word n).foldl (· + ·) 0 ≤ (t.qlist n).length))
    && ix.all (fun x => (wordKs x.word).all fun n => !t.kBusy n)
    && (v.isEmpty || decide (t.vq.length < 64))
    && ((ix ++ v).all fun x => (wordDsts x.word ++ wordSrcs x.word ++ wordPair x.word).all fun r => !t.awaits r)
    && ix.all fun x => !((x.opc == 0xF00 || x.opc == 0xF01) && (x.word.extractLsb' 32 12).toNat == 0x17 && !t.vq.isEmpty)

/-! Frame lines (01 R29, 02 R45). -/

/-- The lines of the generators (01 R27). -/
def genLines : List Nat := [45, 46, 47]

/-- The frame lines that hold a register (01 R27); those of the generators beside a bound one. -/
def regLines : Reg → List Nat
  | .s n => if n = 0 then [] else [32 + n.toNat / 16]
  | .v n => if n.toNat < 24 then [n.toNat] else n.toNat :: genLines
  | .k n => if n = 0 then [] else [36]
  | .m _ => [37]
  | .q n => [if n.toNat < 4 then 39 + n.toNat else 43 + (n.toNat - 4) / 2]

/-- The frame lines of a word's registers, its v registers rotated by `rot`. -/
def wordLines (w : IWord) (rot : Nat) : List Nat :=
  (((wordDsts w ++ wordSrcs w ++ wordPair w).map (rotReg rot)).flatMap regLines
    ++ (if wordPm w = 0 then [] else [36]) ++ if 0x7C0 ≤ (opcOf w).toNat && opcIsV (opcOf w).toNat then genLines else []).eraseDups

/-- The frame lines of a bundle: the status line, the lines of its I- and X-class instructions' registers, and that of the s
register which its V-class instruction captures. -/
def bundleLines (ss : List BSlot) : List Nat :=
  (38 :: ss.flatMap fun y =>
    if opcPipe y.opc == .v then ((wordScalar y.word).map fun n => regLines (.s n)).getD [] else wordLines y.word 0).eraseDups

/-- The registers that a word reads, its mask among them. -/
def wordReads (w : IWord) : List Reg := wordSrcs w ++ wordPair w ++ if wordPm w = 0 then [] else [.k (wordPm w)]

/-- The registers that a bundle reads at its issue. -/
def bundleSrcs (ss : List BSlot) : List Reg :=
  ss.flatMap fun y => if opcPipe y.opc == .v then ((wordScalar y.word).map fun n => [Reg.s n]).getD [] else wordReads y.word

/-- Whether a task's frame store holds these lines. -/
def Task.holdsLines (t : Task) (l : List Nat) : Bool := l.all fun i => t.resident.getLsbD i

/-- The lines that are missing are fetched where the turn lets units serve it; none where they are still to come. -/
def State.withLines (s : State) (t : Nat) (l : List Nat) (now : Bool) : Option State :=
  if (s.task t).holdsLines l then some s
  else if now then some (l.foldl (fun st i => st.frameLine t i) s) else none

/-! The checks of 04 R93. -/

inductive Checked where
  | trap (t : Trap)
  | ok (l : List BSlot) (next : Word)

/-- Step 5 for one slot (04 R94). -/
def State.checkSlot (s : State) (t : Nat) (pc : Word) (w : IWord) : Except Trap BSlot :=
  let bad : Nat → Trap := fun d =>
    { cause := 1, detail := d, addr := pc, info := some ((opcOf w).setWidth 32) }
  match decode w with
  | .error r => .error (bad r.detail)
  | .ok (.illegalOpcodeFff _) => .error (bad 5)
  | .ok i =>
    if bitOf w 83 && !({ s with cur := t } : State).uniAllowed then .error (bad 4) else .ok { pc := pc, word := w, ins := i }

/-- Step 6 (04 R91, 07 R177). -/
def bundleOk (l : List BSlot) : Bool :=
  let n := fun p => (l.filter fun x => opcPipe x.opc == p).length
  let ds := (l.flatMap fun x => wordDsts x.word).filter fun r => r != .s 0 && r != .k 0
  decide (n .i ≤ 1) && decide (n .x ≤ 1) && decide (n .v ≤ 1) && ds.eraseDups.length == ds.length
    && (l.length ≤ 1 || l.all fun x => x.opc != 0x341)

/-- Steps 3 to 6 on the line of task `t`'s bundle. FAULTADDR of step 4 is the transfer's address; at a resumed PC that names no
slot, where no transfer was made, it is the PC itself (assumption 82). -/
def State.checkBundle (s : State) (t : Nat) (l : List Byte) : Checked :=
  let x := s.task t
  let pc := x.pc
  if lineWord l / 2 ^ 20 != 0 then .trap { cause := 1, detail := 6, addr := pc, info := some 0 }
  else
    let away : Checked := .trap { cause := 3, addr := (x.entered.map (·.1)).getD pc, info := some 0 }
    match slotOf pc with
    | none => away
    | some i =>
      let barred := match x.entered with
        | some (_, true) => !lineTgt l i
        | _ => false
      if barred then away
      else
        let js := bundleSlots l i
        match js.mapM fun j => s.checkSlot t (lineOf pc + BitVec.ofNat 64 (12 * j)) (lineSlot l j) with
        | .error e => .trap e
        | .ok ss =>
          if !bundleOk ss then
            .trap { cause := 2, addr := pc, info := some ((opcOf (lineSlot l i)).setWidth 32) }
          else .ok ss (pcAfter pc (js.getLastD i))

/-- An enabled breakpoint of the task's domain at a slot of the bundle (21 R414; assumption 28). -/
def State.breakAt (s : State) (t : Nat) (ss : List BSlot) : Bool :=
  let x := s.task t
  !bit1 x.status stBSKIP && (s.dom x.dom).bkpt.toList.any fun b =>
    bit1 b 63 && ss.any fun y => y.pc == b &&& 0x7FFFFFFFFFFFFF#64

/-! Running a bundle (04 R92). -/

/-- The current instruction's surroundings. -/
def State.begin (s : State) (t : Nat) (pc next first : Word) (now : Bool) : State :=
  { s with
    cur := t
    cx := { pc := pc, next := next, first := first, scal := 0, vs := false, rot := 0, vclk := [], target := none
            fate := .done, trap := none, now := now } }

/-- Gives the registers `ds` of a task the values of another record. -/
def Task.copyRegs (t old : Task) (ds : List Reg) : Task :=
  ds.foldl (fun x r => match r with
    | .s n => x.setS n (old.sreg n)
    | .k n => x.setK n (old.kreg n)
    | .m n =>
      { x with
        m := x.m.set n.toNat (old.mreg n)
        mclk := x.mclk.set n.toNat old.mclk[n.toNat]
        full := if old.full.getLsbD n.toNat then x.full ||| BitVec.ofNat 16 (2 ^ n.toNat)
                else x.full &&& ~~~(BitVec.ofNat 16 (2 ^ n.toNat)) }
    | _ => x) t

/-- The m register that an MTAKE takes from and refills (10 R272). -/
def taken (x : BSlot) : List Reg := if x.opc = 0x9C1 then [regAt x.word 65] else []

/-- The U groups of a state as a bundle without effect leaves them: those that stood, and the new ones, not executed
(04 R101). -/
def keepGroups (old new : List UGroup) : List UGroup :=
  old ++ (new.filter fun u => !old.any fun g => g.gang == u.gang && g.n == u.n).map fun u =>
    { u with done := false, cmd := none, regs := [], clk := [] }

/-- The second instruction `y` alone, on the state before the bundle with the q registers that the first has left: where it
cannot complete, the bundle has no effect but what its wait records. -/
def State.alone (ex : Exec) (start a : State) (t : Nat) (next first : Word) (now : Bool) (y : BSlot) :
    Host.Outcome State Fault Refusal :=
  let old := start.task t
  match ex y.ins ((start.updTask t fun z => { z with q := (a.task t).q }).begin t y.pc next first now) with
  | .next c =>
    if c.cx.fate == .done then .next ((start.begin t y.pc next first now).setFate .stalled)
    else .next (c.updTask t fun z => { z with q := old.q })
  | r => r

/-- The second instruction `y` runs on `a`, the state after the first, `x`, but reads what the registers held before
the bundle; `start` is the state before the bundle (04 R92). -/
def State.second (ex : Exec) (start a : State) (t : Nat) (next first : Word) (now : Bool) (x y : BSlot) :
    Host.Outcome State Fault Refusal :=
  let ds := wordDsts x.word ++ (wordPair x.word).take 1 ++ taken x
  let old := start.task t
  let b := (a.updTask t fun z => z.copyRegs old ds).begin t y.pc next first now
  match ex y.ins b with
  | .next c =>
    match c.cx.fate with
    | .done =>
      .next { c.updTask t fun z => z.copyRegs (a.task t) (ds.filter fun r => !(wordDsts y.word).contains r) with
              cx := if a.cx.target.isSome then { c.cx with target := a.cx.target, pc := a.cx.pc } else c.cx }
    | .trapped =>
      match c.cx.trap with
      | some (tr, false) =>
        let groups := fun (k : Nat) (v : Clus) => { v with ugroups := keepGroups v.ugroups (c.clus k).ugroups }
        let s1 := ({ start with cluss := start.cluss.map fun p => (p.1, groups p.1 p.2) } : State).begin t y.pc next first now
        .next (s1.takeTrap s1 tr false y.opc)
      | _ => start.alone ex a t next first now y
    | _ => start.alone ex a t next first now y
  | r => r

/-- The pops of a word from q4 to q7, out of a task's queues. -/
def Task.dropPops (t : Task) (w : IWord) : Task :=
  ([4, 5, 6, 7] : List (BitVec 3)).foldl (fun x n => x.setQ n ((x.qlist n).drop (wordQ w n))) t

/-- The entries that a word pops stand in front of a task's queues again, as `old` has them. -/
def Task.pushPops (t old : Task) (w : IWord) : Task :=
  ([4, 5, 6, 7] : List (BitVec 3)).foldl (fun x n => x.setQ n ((old.qlist n).take (wordQ w n) ++ x.qlist n)) t

/-- Both instructions of a bundle where the first, `x`, stops or ends its own task: it takes effect after the other, whose pops
come after its own in slot order (assumption 63). -/
def State.runLast (ex : Exec) (s : State) (t : Nat) (next first : Word) (now : Bool) (x y : BSlot) :
    Host.Outcome State Fault Refusal :=
  let old := s.task t
  match ex y.ins ((s.updTask t fun z => z.dropPops x.word).begin t y.pc next first now) with
  | .next b =>
    if b.cx.fate != .done then .next (b.editTask t fun z => { z with q := old.q })
    else if (b.task t).live then s.second ex (b.updTask t fun z => z.pushPops old x.word) t next first now y x
    else .next b
  | e => e

/-- Both instructions of a bundle, in slot order; but a first one that stops or ends its own task takes effect after the other
(assumption 63). A first one that waits does so only where the other does not stall, and asks a wire unit only where the
other does not trap. Where both would fault, the one in the earlier slot does (assumption 86). -/
def State.runBoth (ex : Exec) (s : State) (t : Nat) (next first : Word) (now : Bool) (x y : BSlot) :
    Host.Outcome State Fault Refusal :=
  match ex x.ins (s.begin t x.pc next first now) with
  | .next a =>
    match a.cx.fate with
    | .done => if (a.task t).live then s.second ex a t next first now x y else s.runLast ex t next first now x y
    | .held =>
      let asks := (s.task t).wire.isNone && (a.task t).wire.isSome
      match ex y.ins (s.begin t y.pc next first now) with
      | .next b => if b.cx.fate == .stalled || (asks && b.cx.fate == .trapped) then .next b else .next a
      | _ => .next a
    | _ => .next a
  | e => e

/-- The I- and X-class instructions of a bundle. -/
def State.runIX (ex : Exec) (s : State) (t : Nat) (next first : Word) (now : Bool) : List BSlot →
    Host.Outcome State Fault Refusal
  | [] => .next (s.begin t first next first now)
  | [x] => ex x.ins (s.begin t x.pc next first now)
  | x :: y :: _ => s.runBoth ex t next first now x y

/-- The SCAL of a V-class instruction at issue (08 R188, R213). -/
def scalAt (t : Task) (x : BSlot) : Word :=
  let v := ((wordScalar x.word).map t.sreg).getD 0
  if x.opc = 0x7C3 then BitVec.ofNat 64 (Nat.min v.toNat 65537) else v

/-- The bundle has issued, and its registers `ds` are written: the reads that a boundary served have been made, PC, trace, BSKIP, single step, the V-stream queue and the
arbiter's pointer. What the I-stream does from now on is in a later epoch than the V-class instruction. -/
def State.commitBundle (s : State) (t : Nat) (x0 : Task) (next : Word) (v : List BSlot) (ds : List Reg := []) : State :=
  let from' := s.cx.pc
  let s0 := (s.servedDone (.task t false) x0.clk).cleanRegs t ds
  let s1 : State := match s.cx.target with
    | some (pc, kind) => s0.traceTransfer t from' pc kind
    | none => s0
  let s2 := s1.updTask t fun y =>
    { y with
      vq := y.vq ++ v.map fun z => { pc := z.pc, scal := scalAt x0 z, ins := some z.ins, clk := y.clk }
      clk := if v.isEmpty then y.clk else Clock.bump y.clk y.party
      status := setBit y.status stBSKIP false
      stepping := if x0.hm then x0.stepping else bit1 x0.status stSS
      eretV := none
      pc := if y.run == .exiting then y.pc else match s.cx.target with
        | some (pc, _) => pc
        | none => next
      entered := if !y.live then none else match s.cx.target with
        | some (_, 3) => some (from', false)
        | some _ => some (from', true)
        | none => none }
  match s2.task? t with
  | some y =>
    let s3 := s2.setTile y.tile { s2.tile y.tile with lastBundle := y.ctx }
    if y.live then s3 else (s3.updTask t Task.saveV).putFrame t (s3.vpcOf t y.pc)
  | none => s2

/-! The V-stream (08 R190, R212, R213). -/

/-- Surroundings of a V-class instruction. -/
def State.beginV (s : State) (t : Nat) (e : VEntry) (pc : Word) (rot : Nat) (now : Bool) : State :=
  let b := s.begin t pc (s.task t).pc (s.task t).pc now
  { b with cx := { b.cx with vs := true, scal := e.scal, rot := rot, vclk := e.clk } }

/-- A cause at the head of the V-stream. -/
def State.trapV (s : State) (t : Nat) (e : VEntry) (tr : Trap) (now : Bool) : State :=
  let b := s.beginV t e e.pc 0 now
  b.takeTrap b tr false 0

/-- Instructions that a REP may not repeat (08 R212). -/
def notRepeated : Instr → Bool
  | .rep _ => true
  | .agen _ => true
  | .qbind _ => true
  | .qfree _ => true
  | _ => false

/-- The instruction of an entry of the V-stream, with its frame lines: none while it is still to be read or fetched. An entry
that could not be read again has a cause instead (08 R190). -/
def State.ready? (s : State) (t : Nat) (e : VEntry) (rot : Nat) (now : Bool) : Except (Option Trap) (Instr × State) :=
  match e.ins, e.bad with
  | some i, _ =>
    match s.badReg t (((encode i).map wordReads).getD [] |>.map (rotReg rot)) with
    | some tr => .error (some { tr with info := some (((encode i).map fun w => (opcOf w).setWidth 32).getD 0) })
    | none =>
      match s.withLines t (((encode i).map fun w => wordLines w rot).getD []) now with
      | some s1 => .ok (i, s1)
      | none => .error none
  | none, bad => .error bad

/-- The registers that a V-class instruction writes. -/
def vecDsts (i : Instr) (rot : Nat) : List Reg := (((encode i).map wordDsts).getD []).map (rotReg rot)

/-- The next captured instruction of a begun REP; `cap` are the captured entries. -/
def State.repTurn (ex : Exec) (s : State) (t : Nat) (f : VecF) (e : VEntry) (rest : List VEntry) (now : Bool) :
    Host.Outcome State Fault Refusal :=
  let cap := rest.take (repLen f)
  let posn := repPosn e.scal
  let pass := repPass e.scal
  let count := repCount e.scal
  let rot := pass * repStride f % 24
  match cap[posn]? with
  | none => .next (s.updTask t fun x => { x with vq := rest.drop (repLen f) })
  | some c =>
    match s.ready? t c rot now with
    | .error none => .next s
    | .error (some tr) => .next (s.trapV t e tr now)
    | .ok (i, s1) =>
      if notRepeated i then
        .next (s1.trapV t e { cause := 0x16, info := some (((encode i).map fun w => (opcOf w).setWidth 32).getD 0) } now)
      else
        match ex i (s1.beginV t c e.pc rot now) with
        | .next a =>
          if a.cx.fate != .done then .next a
          else
            .next (((a.servedDone (.task t true) c.clk).cleanRegs t (vecDsts i rot)).updTask t fun x =>
              if posn + 1 < cap.length then { x with vq := { e with scal := repState (posn + 1) pass count } :: x.vq.drop 1 }
              else if pass + 1 < count then { x with vq := { e with scal := repState 0 (pass + 1) count } :: x.vq.drop 1 }
              else { x with vq := x.vq.drop (1 + cap.length) })
        | r => r

/-- The head of the V-stream, a REP that has not begun, executes once it has captured its instructions. -/
def State.repStart (ex : Exec) (s : State) (t : Nat) (i : Instr) (e : VEntry) (now : Bool) : Host.Outcome State Fault Refusal :=
  match ex i (s.beginV t e e.pc 0 now) with
  | .next a =>
    if a.cx.fate != .done then .next a
    else .next (a.updTask t fun y => match y.vq with
      | h :: r => if repBegun h.scal then y else { y with vq := r }
      | [] => y)
  | r => r

/-- One instruction of a task's V-stream executes. Saved entries that are still to be read again are read first. -/
def State.vectorTurn (ex : Exec) (s0 : State) (t : Nat) (now : Bool) : Host.Outcome State Fault Refusal :=
  let s := s0.readSaved t
  let x := s.task t
  match x.vq with
  | [] => .next s
  | e :: rest =>
    if !x.live || (s0.task? t).isNone then .next s
    else
      match s.ready? t e 0 now with
      | .error none => .next s
      | .error (some tr) => .next (s.trapV t e tr now)
      | .ok (i, s1) =>
        let s2 := s1.setTile x.tile { s1.tile x.tile with lastVector := x.ctx }
        match i with
        | .rep f =>
          if repBegun e.scal then s2.repTurn ex t f e rest now
          else if rest.length < repLen f && x.run != .exiting then .next s
          else s2.repStart ex t i e now
        | _ =>
          match ex i (s2.beginV t e e.pc 0 now) with
          | .next a =>
            if a.cx.fate == .done then .next (((a.servedDone (.task t true) e.clk).cleanRegs t (vecDsts i 0)).updTask t fun y => { y with vq := y.vq.drop 1 })
            else .next a
          | r => r

/-! The arbiters (02 R46). -/

/-- Whether nothing has changed but which instruction was tried. -/
def sameState (t s : State) : Bool := decide (({ t with cur := s.cur, cx := s.cx } : State) = s)

/-- The tasks of a tile's contexts, round robin, starting after the context that the arbiter granted last (02 R46). -/
def State.grantOrder (s : State) (tile last : Nat) : List Nat :=
  (List.range 4).flatMap fun i =>
    ((s.tasks.filter fun p => p.2.live && p.2.tile == tile && p.2.ctx == (last + 1 + i) % 4).map (·.1)).take 1

/-- A turn of a V-stream whose head has not its operands is no turn (02 R46). -/
def State.vectorTry (s : State) (ex : Exec) (t : Nat) (now : Bool) : Host.Outcome State Fault Refusal :=
  match s.vectorTurn ex t now with
  | .next a => if sameState { a with tiles := s.tiles } s then .next s else .next a
  | o => o

/-- The tasks that an arbiter of a tile considers before `t`. -/
def State.ahead (s : State) (t last : Nat) : List Nat := (s.grantOrder (s.task t).tile last).takeWhile (· != t)

/-- Whether a turn would change nothing. -/
def unmoved (s : State) : Host.Outcome State Fault Refusal → Bool
  | .next a => sameState a s
  | _ => false

/-- The vector arbiter grants `t`: the head of no V-stream before it has its operands. -/
def State.vectorGranted (s : State) (ex : Exec) (t : Nat) : Bool :=
  (s.ahead t (s.tile (s.task t).tile).lastVector).all fun u => unmoved s (s.vectorTry ex u false)

/-! EXIT and single step. -/

/-- Steps 2 to 4 of 02 R66 are complete. -/
def State.drained (s : State) (t : Nat) : Bool :=
  let x := s.task t
  x.vq.isEmpty && x.sends.isEmpty && x.mcas.isNone
    && !((routerClus (clusOf x.tile)).any fun k => (s.wheel k).queues.any fun q => q.2.any fun c => c.task == t)

/-- Whether the oldest queued REP still captures (08 R212). -/
def Task.capturing (t : Task) : Bool :=
  match t.vq.find? fun e => match e.ins with
    | some (.rep _) => true
    | _ => false with
  | some e =>
    match e.ins with
    | some (.rep f) => decide (((t.vq.dropWhile fun x => x != e).drop 1).length < repLen f)
    | _ => false
  | none => false

/-- The step has ended (21 R415): the stepped bundle and every older V-class instruction have completed. -/
def Task.stepEnded (t : Task) : Bool := t.stepping && !t.hm && (t.vq.isEmpty || t.capturing)

/-- SINGLE_STEP_TRAP (21 R415). -/
def State.stepTrap (s : State) (t : Nat) : State :=
  match s.task? t with
  | none => s
  | some x =>
    if x.live && x.stepEnded && x.nextPend.isNone then
      match (s.updTask t fun y => { y with stepping := false }).takeCause t { cause := cStep, info := some 0 } false 0 x.pc with
      | .ok s1 => s1
      | .error c => s.waitEntry t c
    else s

/-- BREAKPOINT (21 R414): the bundle that would issue is at an enabled breakpoint. -/
def State.breakTrap (s : State) (t : Nat) : State :=
  match s.task? t with
  | none => s
  | some x =>
    if !x.live then s
    else
      match s.fetchLine t x.pc with
      | .line l s1 =>
        match s1.checkBundle t l with
        | .ok ss _ =>
          if s1.breakAt t ss then s1.tryCause t { cause := cBreak, info := some 0 } 0 else s
        | .trap _ => s
      | _ => s

/-! A JOIN whose push is held (02 R49, 10 R269). -/

/-- The wait of kind 5. -/
def joinWait (rp : Word) : Word := BitVec.ofNat 64 (rp.toNat % 2 ^ 55 * 256 + 5)

/-- The record of a held push is read again and pushed, a release like every push (11 R293); a failure is taken before the next
bundle. -/
def State.joinResume (s : State) (t : Nat) (rp : Word) : State :=
  let x := s.task t
  if s.relWaitOf t then s else
  let s0 := s.updTask t fun y => { y.dropWait with joinRec := none }
  let bad := fun (st : State) (tr : Trap) => match st.takeCause t { tr with addr := rp } false 0xA01 x.pc with
    | .ok a => a
    | .error c => s.waitEntry t c
  let w : Who := s.whoOf t (.task t false)
  match s0.readStruct w rp 32 32 with
  | .error (.trap tr) => bad s0 tr
  | .error c => s.waitEntry t c
  | .ok (r, s1) =>
    let f := fun i => BitVec.ofNat 64 (r / 2 ^ (64 * i))
    let (k, s2) := (s1.servedDone (.task t false) x.clk).release t
    match s2.pushRecord (f 0) (f 1) (f 2) (f 3) x.dom x.tile k true with
    | .format => bad s0 { cause := cRecord }
    | .privilege => bad s0 { cause := cPrivilege }
    | .full die => s.updTask t fun y => { y.dropWait with wait := joinWait rp, joinDie := die }
    | .ok s3 => s3

/-! One turn of a task. -/

/-- The bundle's V-class instruction enters the V-stream, and in the same turn executes where `now` says so and the vector
arbiter grants it (02 R46). -/
def State.afterBundle (ex : Exec) (b : State) (t : Nat) (x0 : Task) (v : List BSlot) (now : Bool) : Host.Outcome State Fault Refusal :=
  if now && !v.isEmpty && x0.vq.isEmpty && (b.task t).live && b.vectorGranted ex t then b.vectorTurn ex t now else .next b

/-- A bundle with TRAPI: the trap is taken after the bundle's other instructions (06 R156), but before another that stops its
own task (assumption 63); one that ends it leaves no trap to take. -/
def State.runTrapi (ex : Exec) (s a : State) (t : Nat) (next : Word) (now : Bool) (v ix : List BSlot) (y : BSlot) :
    Host.Outcome State Fault Refusal :=
  let x := s.task t
  let trapi := fun (b : State) => match ex y.ins (b.begin t y.pc next x.pc now) with
    | .next c => if c.cx.fate == .stalled then .next s else .next c
    | r => r
  if (a.task t).live then trapi (a.commitBundle t x next v)
  else if (a.task? t).isNone then .next (a.commitBundle t x next v)
  else
    match trapi ((s.begin t y.pc next x.pc now).commitBundle t x next v) with
    | .next c => if c.cx.fate == .trapped then c.runIX ex t next x.pc now ix else .next c
    | r => r

/-- The V-class instruction of a bundle with ERET enters the queue, since the transfer takes effect after the whole bundle
(04 R92); ERET waits for it like every V-class instruction of the handler (21 R401 step 1). -/
def State.queueFirst (s : State) (t : Nat) (v : List BSlot) : State :=
  s.updTask t fun y =>
    { y with vq := y.vq ++ v.map fun z => { pc := z.pc, scal := scalAt y z, ins := some z.ins, clk := y.clk },
             clk := if v.isEmpty then y.clk else Clock.bump y.clk y.party, eretV := some y.pc }

/-- Runs a bundle that has passed its checks. -/
def State.runBundle (ex : Exec) (s : State) (t : Nat) (ss : List BSlot) (next : Word) (now : Bool) :
    Host.Outcome State Fault Refusal :=
  let x := s.task t
  let ix := ss.filter fun y => opcPipe y.opc != .v && y.opc != 0x1C2
  let vs := ss.filter fun y => opcPipe y.opc == .v
  let eret := !vs.isEmpty && ss.any fun y => y.opc == 0xF02
  let v := if eret && x.eretV == some x.pc then [] else vs
  match s.runIX ex t next x.pc now ix with
  | .next a =>
    if a.cx.fate = .done then
      if eret && !v.isEmpty && a.cx.target.isSome then .next (s.queueFirst t v)
      else match ss.find? fun y => y.opc == 0x1C2 with
      | some y => s.runTrapi ex a t next now v ix y
      | none => (a.commitBundle t x next v (ix.flatMap fun y => wordDsts y.word)).afterBundle ex t x v now
    else .next a
  | r => r

/-- A bundle with a U-prefixed instruction that its member executes waits like a release, which its completion is (08 R210,
11 R293). -/
def State.uniWait (s : State) (t : Nat) (ss : List BSlot) : Bool :=
  let x := s.task t
  ss.any (fun y => bitOf y.word 83) && s.relWaitOf t && match x.gang with
    | none => false
    | some g => match s.ugroup? (clusOf x.tile) g x.unum with
      | none => true
      | some u => u.exec == t && !u.done && u.cmd.isNone

/-- A task's next bundle, from its line (02 R45; 04 R93). -/
def State.issueLine (ex : Exec) (s : State) (t : Nat) (l : List Byte) (now : Bool) : Host.Outcome State Fault Refusal :=
  let x := s.task t
  match s.checkBundle t l with
  | .trap tr => .next (s.tryCause t tr 0)
  | .ok ss next =>
    if s.breakAt t ss && x.wake.isNone then .next (s.tryCause t { cause := cBreak, info := some 0 } 0)
    else if s.uniWait t ss then .next s
    else if let some tr := s.badReg t (bundleSrcs ss) then .next (s.tryCause t tr 0)
    else if !x.bundleReady (ss.filter fun y => opcPipe y.opc != .v) (ss.filter fun y => opcPipe y.opc == .v) then .next s
    else
      match s.withLines t (bundleLines ss) now with
      | some s1 => s1.runBundle ex t ss next now
      | none => .next s

/-- The bundle at a task's PC is fetched and issues. -/
def State.issueNext (ex : Exec) (s : State) (t : Nat) (now : Bool) : Host.Outcome State Fault Refusal :=
  match s.fetchLine t (s.task t).pc with
  | .trap tr => .next (s.tryCause t tr 0)
  | .stall => .next s
  | .locked line => .next (s.queueAt line (.party (s.task t).party))
  | .parked comp line => .next (s.parkAt (.fetch t) comp line)
  | .line l s1 => s1.issueLine ex t l now

/-- Whether a task's next bundle would issue, or take the trap that bars it: its context is ready (02 R45). -/
def State.wouldIssue (ex : Exec) (s : State) (t : Nat) (now : Bool) : Bool :=
  match (s.setFate .stalled).issueNext ex t now with
  | .next a => a.cx.fate != .stalled || decide (a.task t ≠ s.task t)
  | _ => true

/-- The turn of a task's I-stream: a pending cause, a breakpoint, or its next bundle. -/
def State.issueTurn (ex : Exec) (s0 : State) (t : Nat) (now : Bool) : Host.Outcome State Fault Refusal :=
  match s0.task? t with
  | none => .next s0
  | some x =>
    let s := s0.readSaved t
    if !x.live || x.mcas.isSome then .next s0
    else if x.nextPend.isSome && !x.busy then .next (s.takeAsync t)
    else if x.run == .exiting then .next (if s.drained t then s.endTask t none else s)
    else if waitKind x.wait != 0 && x.wake.isNone then .next s
    else if let some rp := (if x.hm then none else x.joinRec) then .next (s.joinResume t rp)
    else if x.stepping && !x.hm then .next (s.stepTrap t)
    else if x.yielded then
      if !s.wouldIssue ex t now then .next s
      else .next ((s.setTile x.tile { s.tile x.tile with lastBundle := x.ctx }).updTask t fun y => { y with yielded := false })
    else s.issueNext ex t now

end Sys2Proof.Machine
end

