-- ==== Sys2Proof/Machine/CtlSpace.lean ====
section
/-! DEFINITION. Device control space (01 R33, R34): the dies' control registers, the mailboxes as the firing program
reaches them (22 R420-R424) and the kiln log (23 R432). -/

namespace Sys2Proof.Machine

open Sys2Proof

/-! Writes of the dies' registers; their reserved fields keep reading zero (00 R7). -/

/-- DEVCFG (01 R26). -/
def State.devcfgWrite (s : State) (v : Word) : State := { s with devset := true, devnum := v.setWidth 10 }

/-- DQAGEp (02 R54). -/
def State.dqageWrite (s : State) (die p : Nat) (v : Word) : State :=
  s.updDie die fun d => { d with dqage := d.dqage.setIfInBounds p (v &&& 0xFFFF#64) }

/-- DQRINGp (02 R434): BASE and LSZ change only while the queue is empty. -/
def State.dqringWrite (s : State) (die p : Nat) (v : Word) : State :=
  s.updDie die fun d =>
    let w := v &&& 0x800F_FFFF_FFFF_F00F#64
    let old := d.dqring.toList.getD p 0
    { d with dqring := d.dqring.setIfInBounds p (if (d.queue p).isEmpty then w else setBit old 63 (bit1 w 63)) }

/-- DAMPCTL (14 R346). -/
def State.dampctlWrite (s : State) (die : Nat) (v : Word) : State :=
  let lim := Nat.max 1 (Nat.min 64 (Word.bits v 22 16))
  s.updDie die fun d => { d with dampctl := BitVec.ofNat 64 (lim * 65536 + Word.bits v 11 0) }

/-- XDELAY (14 R350). -/
def State.xdelayWrite (s : State) (die : Nat) (v : Word) : State :=
  s.updDie die fun d => { d with xdelay := v &&& 0xFFFF_FFFF#64 }

/-! Mailboxes (22 R420-R424). -/

def State.mbox (s : State) (n : Nat) : Mbox := s.mboxes.getD n Mbox.reset
def State.updMbox (s : State) (n : Nat) (f : Mbox → Mbox) : State :=
  { s with mboxes := s.mboxes.set n (f (s.mbox n)) }

/-- The successor of a sequence number (22 R421). -/
def seqNext (x : BitVec 32) : BitVec 32 := if x = BitVec.allOnes 32 then 1 else x + 1

/-- How many successors `b` lies beyond `a`. -/
def seqDist (a b : BitVec 32) : Nat :=
  if a.toNat ≤ b.toNat then b.toNat - a.toNat else b.toNat + (2 ^ 32 - 1) - a.toNat

/-- Whether a new last-posted number is accepted (22 R421). -/
def seqOk (old cons new : BitVec 32) : Bool := new == seqNext old && decide (seqDist cons new ≤ 16)

def State.msixOf (s : State) (peer : Bool) (n : Nat) : Msix :=
  (if peer then s.msixPeer else s.msixHost).getD n Msix.reset

def State.setMsix (s : State) (peer : Bool) (n : Nat) (x : Msix) : State :=
  if peer then { s with msixPeer := s.msixPeer.set n x } else { s with msixHost := s.msixHost.set n x }

/-- MSIX_SEND (22 R424): vector n of the mailbox's port. The function's MSI-X enable and mask, in PCI configuration space, count
as set and clear (assumption 90). -/
def State.msixSend (s : State) (peer : Bool) (n : Nat) : State :=
  let x := s.msixOf peer n
  if x.masked then s.setMsix peer n { x with pending := true } else s.emit (.msix peer n x.addr x.data)

/-- A write of HSEQ's SEQ (22 R421, R422): an accepted one sends the new value to m0 of the task in MBTASK. -/
def State.hseqWrite (s : State) (n : Nat) (v : BitVec 32) : State :=
  let x := s.mbox n
  if seqOk x.hseq x.hcons v then
    let s1 := s.updMbox n fun y => { y with hseq := v }
    let (st, s2) := s1.receive x.task none 0 [v.setWidth 64] false []
    if st = 2 then { s2 with delDrop := (s2.delDrop + 1) % 2 ^ 32 } else s2
  else s.updMbox n fun y => { y with err := true }

/-- A write of DSEQ (22 R421, R422): an accepted one signals MSI-X vector n. -/
def State.dseqWrite (s : State) (n : Nat) (v : BitVec 32) : State :=
  let x := s.mbox n
  if seqOk x.dseq x.dcons v then (s.updMbox n fun y => { y with dseq := v }).msixSend x.port n
  else s.updMbox n fun y => { y with err := true }

def State.hconsWrite (s : State) (n : Nat) (v : BitVec 32) : State := s.updMbox n fun y => { y with hcons := v }
def State.dconsWrite (s : State) (n : Nat) (v : BitVec 32) : State := s.updMbox n fun y => { y with dcons := v }
def State.mbtaskWrite (s : State) (n : Nat) (v : Word) : State := s.updMbox n fun y => { y with task := v }
def State.mbportWrite (s : State) (n : Nat) (peer : Bool) : State := s.updMbox n fun y => { y with port := peer }
def State.clearErr (s : State) (n : Nat) (v : Word) : State :=
  if bit1 v 32 then s.updMbox n fun y => { y with err := false } else s

/-- The 8 bytes at offset `o`, a multiple of 8, of mailbox `n`'s block; its end is not described. -/
def State.mboxWord (s : State) (n o : Nat) : Option Word :=
  let x := s.mbox n
  if o < 2048 then some (BitVec.ofNat 64 (x.data.num o 8))
  else
    match o - 2048 with
    | 0 => some (BitVec.ofNat 64 (x.hseq.toNat + if x.err then 2 ^ 32 else 0))
    | 8 => some (x.hcons.setWidth 64)
    | 16 => some (x.dseq.setWidth 64)
    | 24 => some (x.dcons.setWidth 64)
    | 32 => some x.task
    | 40 => some (if x.port then 1 else 0)
    | _ => none

/-- A write of those 8 bytes by the firing program. HSEQ's SEQ and DCONS are written by the host alone (22 R420); ERR
is cleared by writing 1. -/
def State.mboxPut (s : State) (n o : Nat) (v : Word) : Option State :=
  if o < 2048 then some (s.updMbox n fun x => { x with data := x.data.writeNum o 8 v.toNat })
  else
    match o - 2048 with
    | 0 => some (s.clearErr n v)
    | 8 => some (s.hconsWrite n (v.setWidth 32))
    | 16 => some (s.dseqWrite n (v.setWidth 32))
    | 24 => some s
    | 32 => some (s.mbtaskWrite n v)
    | 40 => some (s.mbportWrite n (bit1 v 0))
    | _ => none

/-! The control block of a die. -/

/-- The 8 bytes at a control-space offset, a multiple of 8, where the manual describes them. -/
def State.ctlWord (s : State) (off : Nat) : Option Word :=
  let die := off / 0x2000_0000
  let o := off % 0x2000_0000
  let d := s.die die
  if 0x1_0000 ≤ o && o < 0x1_0080 then some (d.dqage.toList.getD ((o - 0x1_0000) / 8) 0)
  else if o = 0x1_0100 then some d.xdelay
  else if o = 0x1_0108 then some d.dampctl
  else if o = 0x1_0200 && die = 0 then some (BitVec.ofNat 64 (s.devnum.toNat + if s.devset then 1024 else 0))
  else if 0x1_0400 ≤ o && o < 0x1_0480 then some (d.dqring.toList.getD ((o - 0x1_0400) / 8) 0)
  else if 0x10_0000 ≤ o && o < 0x14_0000 && die = 0 then s.mboxWord ((o - 0x10_0000) / 4096) (o % 4096)
  else if 0x30_0000 ≤ o && o < 0x32_0000 then
    let e := d.klog.getD ((o - 0x30_0000) / 32) (List.replicate 32 0)
    some (BitVec.ofNat 64 (bytesNum ((e.drop (o % 32)).take 8)))
  else if o = 0x32_0000 then some (BitVec.ofNat 64 d.klhead)
  else none

/-- A write of those 8 bytes. The kiln log is read only (23 R432, 00 R7). -/
def State.ctlPut (s : State) (off : Nat) (v : Word) : Option State :=
  let die := off / 0x2000_0000
  let o := off % 0x2000_0000
  if 0x1_0000 ≤ o && o < 0x1_0080 then some (s.dqageWrite die ((o - 0x1_0000) / 8) v)
  else if o = 0x1_0100 then some (s.xdelayWrite die v)
  else if o = 0x1_0108 then some (s.dampctlWrite die v)
  else if o = 0x1_0200 && die = 0 then some (s.devcfgWrite v)
  else if 0x1_0400 ≤ o && o < 0x1_0480 then some (s.dqringWrite die ((o - 0x1_0400) / 8) v)
  else if 0x10_0000 ≤ o && o < 0x14_0000 && die = 0 then s.mboxPut ((o - 0x10_0000) / 4096) (o % 4096) v
  else if 0x30_0000 ≤ o && o ≤ 0x32_0000 then some s
  else none

/-- The control-space offset of a physical address. -/
def ctlOff (pa : Nat) : Nat := pa - 0x8_0000_0000_0000

/-- A read of `n` ≤ 8 bytes of control space. -/
def State.ctlRead (s : State) (pa n : Nat) : Except Stop Nat :=
  match s.ctlWord (alignDown (ctlOff pa) 8) with
  | some x => .ok (x.toNat / 2 ^ (8 * (pa % 8)) % 2 ^ (8 * n))
  | none => .error (.refuse (.undescribedControl pa))

/-- A write of `n` ≤ 8 bytes of control space: the other bytes of the register keep their values; a W1C bit outside the
bytes stored stays as it is, DEVCFG is written by a store to a byte of NUM (01 R26) and DSEQ by one to a byte of SEQ
(22 R420; assumption 31). -/
def State.ctlWrite (s : State) (pa n x : Nat) : Eff :=
  let off := alignDown (ctlOff pa) 8
  match s.ctlWord off with
  | none => .error (.refuse (.undescribedControl pa))
  | some old =>
    let mbox := 0x10_0000 ≤ off && off < 0x14_0000
    if (off = 0x1_0200 && 2 ≤ pa % 8) || (mbox && off % 4096 == 2064 && 4 ≤ pa % 8) then .ok s
    else
    let hseq := mbox && off % 4096 == 2048
    let base := if hseq then setBit old 32 false else old
    match s.ctlPut off (BitVec.ofNat 64 (mixBits base.toNat (8 * (pa % 8)) (8 * n) x)) with
    | some s1 => .ok s1
    | none => .error (.refuse (.undescribedControl pa))

end Sys2Proof.Machine
end

