-- ==== Sys2Proof/Machine/Fabric.lean ====
section
/-! DEFINITION. Messages, remote arrivals and remote signals on their way: delivery and acknowledgement (10 R264, R271, R272;
14 R352), and the receiving side of Ultra Ethernet (20 R393; 13 R333). -/

namespace Sys2Proof.Machine

open Sys2Proof

/-! Messages (10 R271, R272). -/

/-- A send leaves: through the fabric, by the transport, or nowhere. -/
def State.sendMessage (s : State) (dev : Nat) (handle : Word) (reg : Nat) (words : List Word) (blk : Bool) (d : Reg)
    (trapm : Bool) (clk : Clock) : State :=
  let (id, s1) := s.newId
  let x := s.me
  let src := clusEndpoint (clusOf x.tile)
  let mid := s.freeMid src id
  let m : Send := { id := id, task := s.cur, dom := x.dom, dev := dev, handle := handle, reg := reg, words := words
                    blk := blk, clk := clk, src := src, mid := mid, got := [], status := none }
  let s2 := s1.updTask s.cur fun t => { t with sends := t.sends ++ [(id, d, trapm)] }
  let tl := s2.tile x.tile
  let s3 := s2.setTile x.tile { tl with msgout := tl.msgout + 1 }
  let clus := clusOf x.tile
  if dev = s.devnum.toNat then
    let to' := match s3.task? (handleFrame handle) with
      | some t => clusOf t.tile
      | none => clus
    ({ s3 with sends := s3.sends ++ [m] } : State).inject src (clusEndpoint to') 3 mid id 9 (payloads words)
  else if s3.uetReach dev then
    ({ s3 with sends := s3.sends ++ [m] } : State).sendPacket dev (.message x.dom handle reg words blk) s.cur id clk (clusOf x.tile)
  else ({ s3 with sends := s3.sends ++ [{ m with status := some 2 }] } : State).dropSend clus

/-- MESSAGE_DELIVERY (10 R271, R272): the whole send has arrived, and every earlier send of its task to its handle has
been answered. -/
def State.messageDelivery (s : State) (id : Nat) : State :=
  match s.sends.find? fun m => m.id == id with
  | none => s
  | some m =>
    let earlier := (s.sends.takeWhile fun x => x.id != id).any fun x =>
      x.task == m.task && x.handle == m.handle && x.dev == m.dev && x.status.isNone
    if m.dev != s.devnum.toNat || m.status.isSome || earlier || m.got.length < flitsOf m.words.length then s
    else
      let (st, s1) := s.receive m.handle (some m.dom) m.reg m.words m.blk m.clk
      ({ s1 with sends := updWhere s1.sends (fun x => x.id == id) fun x => { x with status := some st } } : State).freeSlot m

/-- A status is written to a register of a task (10 R271). -/
def Task.putStatus (t : Task) (r : Reg) (v : Word) : Task :=
  match r with
  | .s n => if n = 0 then t else { t with s := t.s.set n.toNat v }
  | .m n => t.writeM n.toNat v
  | .q n => { t with q := t.q.set n.toNat (t.q[n.toNat] ++ [v]) }
  | _ => t

/-- MESSAGE_ACK (10 R271, 18 R371): the answer comes back, to the task's registers or to its frame; a full q register
makes it wait (01 R22). -/
def State.messageAck (s : State) (id : Nat) : State :=
  match s.sends.find? fun m => m.id == id with
  | none => s
  | some m =>
    let full := match ((s.task m.task).sends.find? fun x => x.1 == id) with
      | some (_, .q n, trapm) => !(trapm && m.status != some 0) && decide (qDepth n ≤ ((s.viewTask m.task).qlist n).length)
      | _ => false
    match m.status with
    | none => s
    | some st =>
      if full then s else
      let s1 : State := { s with sends := s.sends.filter fun x => x.id != id }
      match ((s1.task m.task).sends.find? fun x => x.1 == id) with
      | none => s1
      | some (_, d, trapm) =>
        let s2 := s1.updTask m.task fun t =>
          { t with
            sends := t.sends.filter fun x => x.1 != id
            pend := if trapm && st != 0 then
                t.pend ++ [{ code := cMessage, detail := st, addr := 0, w := false, info := 0x9C0, ref := id }]
              else t.pend }
        let s3 := if trapm && st != 0 then s2
          else s2.editTask m.task fun t =>
            ({ t with dead := if st = 2 then (t.dead + 1) % 2 ^ 32 else t.dead } : Task).putStatus d (BitVec.ofNat 64 st)
        s3.wake m.task 6 0

/-! Remote arrivals and signals (10 R264, 14 R352). -/

/-- A remote arrival or signal leaves for the cone of a target word. -/
def State.sendArrival (s : State) (tw : Word) (signal : Bool) (clk : Clock) : State :=
  let x := s.me
  let clus := clusOf x.tile
  if twDev tw = s.devnum.toNat then
    if !s.isPresent (twClus tw) then s.dropSend clus
    else
      let (id, s1) := s.newId
      let src := clusEndpoint clus
      ({ s1 with rarrs := s1.rarrs ++ [{ mid := id, task := s.cur, dom := x.dom, clus := twClus tw, cid := twCid tw
                                         signal := signal, clk := clk, at' := none }] } : State).inject src
        (clusEndpoint (twClus tw)) 4 (s.freeMid src id) id 9 [tw.setWidth 512]
  else if s.uetReach (twDev tw) then
    s.sendPacket (twDev tw)
      (if signal then .signal x.dom (twClus tw) (twCid tw) else .arrival x.dom (twClus tw) (twCid tw)) s.cur 0 clk clus
  else s.dropSend clus

/-- Two arrivals or signals go to the same cone. -/
def RArr.sameCone (a b : RArr) : Bool := a.clus == b.clus && a.cid == b.cid

/-- Whether an arrival may be counted: it has reached its cone, and so have those of its task to that cone before it, and they
have been counted (14 R352). -/
def State.arrivalReady (s : State) (r : RArr) : Bool :=
  r.at'.isSome && !(s.rarrs.takeWhile fun x => x.mid != r.mid).any fun x => x.task == r.task && x.sameCone r

/-- The `idx`-th arrival, or signal, in flight has reached its cone and is counted: those of one task to one cone in its
program order, those of different tasks in their order of arrival (14 R352). -/
def State.arrivalDone (s : State) (idx : Nat) (signal : Bool) : State :=
  match (s.rarrs.filter fun r => r.signal == signal)[idx]? with
  | none => s
  | some r =>
    let first := s.rarrs.all fun x => !(x.sameCone r && s.arrivalReady x) || decide (r.at'.getD 0 ≤ x.at'.getD 0)
    if !s.arrivalReady r || !first then s
    else
      let s1 : State := { s with rarrs := s.rarrs.filter fun x => x.mid != r.mid }
      if signal then s1.remoteSignal r.clus r.cid r.dom r.clk else s1.remoteArrive r.clus r.cid r.dom false r.clk

/-- PENDING_BYTE_DECREMENT (10 R255, R263): the `idx`-th decrement in flight reaches its cone. -/
def State.pendingBytes (s : State) (idx : Nat) : State :=
  match s.pbdecs[idx]? with
  | none => s
  | some p => ({ s with pbdecs := s.pbdecs.eraseIdx idx } : State).remoteBytes p.clus p.cid p.bytes p.dom p.clk

/-! Ultra Ethernet (20 R393). -/

/-- The status of what was sent to an absent cluster (10 R248). -/
def stAbsent : Nat := 0xFE

/-- The elements of a CPYR from another device are performed at cluster `clus` (10 R255), in memory of this device or a range
that the cluster pins: the cause of the first that fails, or
0, with how many were performed. `none`: one must wait, and the packet is not taken yet. -/
def State.cpyrReceive (s : State) (who : Who) (clus : Nat) : List WireElem → Answer → Option (Answer × State)
  | [], a => some (a, s)
  | e :: r, a =>
    let acc := if 8 ≤ e.w then elemAcc e.bit e.w true e.acc.isSome else subAcc e.bit true
    match s.check who { acc with pcie := false } with
    | .trap t => some ({ a with status := t.cause, pw := t.pw }, s)
    | .ok pa _ =>
      let own := (linesOf pa acc.n).all fun l => match (s.dirEnt l).st with
        | .p 0 c => c == clus
        | _ => true
      if !own then some ({ a with status := cPinned }, s)
      else
        match s.writeElem who e.bit e.w e.code e.acc none with
        | .ok (f, s1) => s1.cpyrReceive who clus r { a with count := a.count + 1, flags := a.flags ||| f }
        | .error (.trap t) => some ({ a with status := t.cause, pw := t.pw }, s)
        | .error _ => none
    | _ => none

/-- The data of a CPYR packet is performed, and its decrement goes to the cone that it names (10 R255). -/
def State.cpyrPacket (s : State) (dom clus party : Nat) (elems : List WireElem) (cone : Option Word) (first total : Nat)
    (clk : Clock) : Option (Answer × State) :=
  let who : Who := { dom := dom, tile := 8 * clus, party := party, clk := Clock.join clk (pubClock party 1), member := none }
  (s.cpyrReceive who clus elems { status := 0 }).map fun p =>
    let w := ((elems.head?).map (·.w)).getD 8
    let bytes := bytesUpTo (first + p.1.count) total w - bytesUpTo first total w
    match cone with
    | some recv => (p.1, if bytes = 0 then p.2 else p.2.sendBytes clus dom recv bytes party)
    | none => p

/-- Plan data for a compact (13 R328): it waits until the compact has been signed, and while it is in a boundary; that of an
aborted one, or of one that has ended, is discarded (13 R337). -/
def State.planPacket (s : State) (id clus : Nat) (va : Word) (bytes : List Byte) (acc : Bool) : Option State :=
  s.whenIn id (fun c => c.signed && c.st != .boundary) fun c => s.planArrive c clus va bytes acc

/-- A control packet of a compact has arrived (13 R333). -/
def State.controlPacket (s : State) (p : Packet) : State := ({ s with inbox := s.inbox ++ [p] } : State).takeInbox

/-- What a received packet does. `none`: it cannot be taken yet. -/
def State.performPacket (s : State) (p : Packet) : Option (Answer × State) :=
  let at' : Nat → State → Option (Answer × State) := fun clus st =>
    some (if s.isPresent clus then ({ status := 0 }, st) else ({ status := stAbsent }, s))
  match p.body with
  | .message dom h mr words blk =>
    let (st, s1) := s.receive h (some dom) mr words blk p.clk
    some ({ status := st }, s1)
  | .arrival dom clus cid => at' clus (s.remoteArrive clus cid dom false p.clk)
  | .signal dom clus cid => at' clus (s.remoteSignal clus cid dom p.clk)
  | .decrement dom clus cid bytes =>
    at' clus { s with pbdecs := s.pbdecs ++ [{ clus := clus, cid := cid, bytes := bytes, dom := dom, clk := p.clk }] }
  | .cpyrData dom clus party elems cone first total =>
    if s.isPresent clus then s.cpyrPacket dom clus party elems cone first total p.clk else some ({ status := stAbsent }, s)
  | .planData num clus va bytes acc => (s.planPacket num clus va bytes acc).map fun st => ({ status := 0 }, st)
  | _ => some ({ status := 0 }, s.controlPacket p)

/-- UET_PACKET_RECEIVE: a packet takes effect once, after the one before it in its flow; a repeated one is only
acknowledged. -/
def State.packetReceive (s : State) (p : Packet) : State :=
  match s.uetSeen.find? fun a => a.dev == p.dev && a.num == p.num with
  | some a => s.emit (.uetAck a)
  | none =>
    if !(p.after.all fun n => s.uetSeen.any fun a => a.dev == p.dev && a.num == n) then s
    else
      match s.performPacket p with
      | none => s
      | some (r, s1) =>
        let a : UetAns := { dev := p.dev, num := p.num, answer := r }
        ({ s1 with uetSeen := a :: s1.uetSeen } : State).emit (.uetAck a)

/-- What an acknowledgement ends. -/
def State.packetAcked (s : State) (u : UePkt) (r : Answer) : State :=
  let lost := fun (st : State) clus => if r.status = stAbsent then st.dropSend clus else st
  match u.pkt.body with
  | .message .. => { s with sends := updWhere s.sends (fun m => m.id == u.ref) fun m =>
      if m.status.isNone then { m with status := some r.status } else m }
  | .cpyrData _ _ _ es _ _ _ =>
    match s.cluss.find? fun c => c.2.copies.any fun x => x.id == u.ref with
    | none => s
    | some (k, _) =>
      (lost s k).copyAcked k u es (if r.status = stAbsent then 0 else r.status)
        (if r.status = stAbsent then es.length else r.count) r.flags r.pw
  | .planData .. => s.updCompactId u.ref fun k => { k with unacked := k.unacked - 1 }
  | .decrement .. => lost s u.clus
  | .arrival .. => lost s u.clus
  | .signal .. => lost s u.clus
  | _ => s

/-- UET_ACK_RECEIVE. -/
def State.ackReceive (s : State) (num : Nat) (r : Answer) : State :=
  match s.uetOut.find? fun u => u.pkt.num == num with
  | none => s
  | some u =>
    ({ s with uetOut := s.uetOut.filter fun x => x.pkt.num != num } : State).packetAcked u r

/-- The transport gives up on a packet of a compact: it aborts (13 R336), or its abort goes on without that device. -/
def State.compactLost (s : State) (u : UePkt) (abort : Bool) : State :=
  match s.compactId? u.ref with
  | none => s
  | some c =>
    if c.st != .aborting then s.abortCompact c.num 0xF002 noTile (withFatal 0)
    else if abort then s.abortWithout c.num u.pkt.dev
    else s

/-- The transport gives up on a packet. -/
def State.giveUp (s : State) (u : UePkt) : State :=
  match u.pkt.body with
  | .message .. => (s.packetAcked u { status := 2 }).dropSend u.clus
  | .arrival .. => s.dropSend u.clus
  | .signal .. => s.dropSend u.clus
  | .decrement .. => s.dropSend u.clus
  | .cpyrData .. => s.packetAcked u { status := 0xFF }
  | .abortTok .. | .abortStep .. | .abortGo .. | .aborted .. => s.compactLost u true
  | .sign _ _ _ m => s.compactLost u (m.kind matches .abort ..)
  | _ => s.compactLost u false

/-- A packet on which the transport has given up leaves its flow: the next one follows the one before it. -/
def relink (u : UePkt) (l : List UePkt) : List UePkt :=
  updWhere (l.filter fun x => x.pkt.num != u.pkt.num) (fun x => x.pkt.after == some u.pkt.num) fun x =>
    { x with pkt := { x.pkt with after := u.pkt.after } }

/-- UET_RETRANSMIT: RTO ck have passed without the acknowledgement. -/
def State.retransmit (s : State) (num : Nat) : State :=
  match s.uetOut.find? fun u => u.pkt.num == num with
  | none => s
  | some u =>
    if (s.cycle - u.sentAt).toNat < Word.bits s.uetrto 31 0 then s
    else if u.tries < Word.bits s.uetretry 3 0 then
      let port := s.sprayPort u.pkt.dev (num + u.tries + 1)
      let s1 : State := { s with uetOut := updWhere s.uetOut (fun x => x.pkt.num == num) fun x =>
          { x with tries := x.tries + 1, sentAt := s.cycle, port := port } }
      if s.uetReach u.pkt.dev then s1.emit (.uetPacket port u.pkt) else s1
    else ({ s with uetOut := relink u s.uetOut } : State).giveUp u

end Sys2Proof.Machine
end

