-- ==== Sys2Proof/Machine/Memory.lean ====
section
/-! DEFINITION. Loads, stores, line operations, pinning, atomics, CAS, FENCE and I/O access (07 R159-R175,
R183-R186). -/

namespace Sys2Proof.Machine

open Sys2Proof

/-! Shared parts. -/

/-- 2^SIZE (07 R160). -/
def memN (f : MemF) : Nat := 2 ^ f.size.toNat

/-- The ATM bit of LD and ST (07 R165). -/
def memAtm (f : MemF) : Bool := f.x.getLsbD 3

/-- eff_addr of a memory instruction (07 R159). -/
def State.memEa (s : State) (f : MemF) : Word := s.effAddr f.a f.imm

/-- The scope instance of a memory instruction; a named scope that is not set raises the scope-descriptor fault
(07 R164), before the checks of the access (assumption 106). -/
def State.memScope (s : State) (f : MemF) : Except Stop ScopeInst :=
  match s.scopeInst s.myDom s.myTile f.scope.toNat f.scopen.toNat with
  | some i => .ok i
  | none => .error (trapOf cScope)

/-- A check's outcome as an access or the end of the instruction. -/
def State.pass (_s : State) : Chk → Except Stop (Nat × Tr)
  | .ok pa t => .ok (pa, t)
  | c => .error c.stop

/-- A failed check that names another address (07 R161: FAULTADDR is the effective address). -/
def Chk.atAddr (c : Chk) (va : Word) : Chk :=
  match c with
  | .trap t => .trap { t with addr := va }
  | c => c

/-- The state as steps 1 to 5 of 07 R161 see it: no home is lost or moves, no line is pinned or locked, no word witnessed or
poisoned. -/
def State.bare (s : State) : State :=
  { s with poison := [], lost := [], foldstat := 0, dir := [], compacts := [], wit := [], shadow := none, parked := []
           lockWaits := [] }

/-- Steps 1 to 5 of 07 R161. -/
def State.check15 (s : State) (a : Acc) : Chk :=
  if !highBits a.va && s.walkHeld s.myDom a.va.toNat then .stall else s.bare.check s.whoMe a

/-! Loads and stores (07 R165, R166). -/

/-- A read of `n` bytes by LD or LDP; an atomic one may acquire at an instance. -/
def State.loadAt (s : State) (va : Word) (n : Nat) (data : Bool) (acq : Option ScopeInst := none) :
    Except Stop (Nat × Nat × State) := do
  stallIf (s.spanWait va n false)
  let a : Acc := { va := va, n := n, al := n, wr := false, data := data, ctl := true, acq := acq }
  let (pa, t) ← s.pass (s.check s.whoMe a)
  if physClass pa = .control then
    let lo ← s.ctlRead pa (Nat.min n 8)
    let hi ← if n ≤ 8 then .ok 0 else s.ctlRead (pa + 8) 8
    return (lo + hi * 2 ^ 64, pa, s)
  else
    let (v, s1) := s.readAt s.whoMe a pa t
    return (v, pa, s1)

/-- A write of `n` bytes by ST or STP. -/
def State.storeAt (s : State) (va : Word) (n : Nat) (data : Bool) (v : Nat) : Except Stop (Nat × State) := do
  stallIf (s.spanWait va n true)
  let a : Acc := { va := va, n := n, al := n, wr := true, data := data, ctl := true }
  let (pa, t) ← s.pass (s.check s.whoMe a)
  if physClass pa = .control then
    let s1 ← s.ctlWrite pa (Nat.min n 8) v
    let s2 ← if n ≤ 8 then .ok s1 else s1.ctlWrite (pa + 8) 8 (v / 2 ^ 64)
    return (pa, s2)
  else return (pa, s.writeAt s.whoMe a pa t v)

/-- The value of a loaded or old number: sign-extended from `n` bytes under SGN. -/
def memExt (sgn : Bool) (n v : Nat) : Word := if sgn then sext64 (8 * n) v else BitVec.ofNat 64 v

/-- LD (07 R165). -/
def State.ld (s : State) (f : MemF) : Eff := do
  if memAtm f then
    let inst ← s.memScope f
    let (v, pa, s1) ← s.loadAt (s.memEa f) (memN f) false (acqInst f.order.toNat inst)
    (s1.atomicRead pa (memN f) f.order.toNat inst).writeDst f.d (memExt f.sgn (memN f) v)
  else
    let (v, _, s1) ← s.loadAt (s.memEa f) (memN f) true
    s1.writeDst f.d (memExt f.sgn (memN f) v)

def execLd (f : MemF) (s : State) := s.runI 0x200 f.hd [f.d] fun st => st.ld f

/-- ST (07 R165). -/
def State.stw (s : State) (f : MemF) : Eff := do
  let (b, s1) ← s.readSrc f.b
  if memAtm f then
    let inst ← s.memScope f
    stallIf (ordRel f.order.toNat && s.relWait)
    let (pa, s2) ← s1.storeAt (s.memEa f) (memN f) false b.toNat
    return s2.atomicWrite pa (memN f) f.order.toNat inst false
  else
    let (_, s2) ← s1.storeAt (s.memEa f) (memN f) true b.toNat
    return s2

def execSt (f : MemF) (s : State) := s.runI 0x201 f.hd [] fun st => st.stw f

/-- LDP (07 R165): d is written first. -/
def execLdp (f : MemF) (s : State) := s.runI 0x202 f.hd [] fun st => do
  let (v, _, s1) ← st.loadAt (st.memEa f) 16 true
  let s2 ← s1.writeDst f.d (BitVec.ofNat 64 v)
  s2.writeDst f.c (BitVec.ofNat 64 (v / 2 ^ 64))

/-- STP (07 R165). -/
def execStp (f : MemF) (s : State) := s.runI 0x203 f.hd [] fun st => do
  let (lo, s1) ← st.readSrc f.b
  let (hi, s2) ← s1.readSrc f.c
  let (_, s3) ← s2.storeAt (st.memEa f) 16 true (lo.toNat + hi.toNat * 2 ^ 64)
  return s3

/-! Line operations (07 R167). -/

/-- The access of PREF, WBL and INVL to the line of an address: read access, no data access. -/
def lineAcc (va : Word) : Acc := { va := va, n := 1, al := 1, wr := false, data := false, plain := true }

/-- PREF (07 R167): it never faults, and it may be dropped. -/
def execPref (f : MemF) (s : State) := s.runI 0x240 f.hd [] fun st =>
  match ({ st with poison := [] } : State).check st.whoMe (lineAcc (st.memEa f)) with
  | .ok pa t =>
    let s1 := st.free.2.fillTlb st.myDom (st.memEa f).toNat t
    let s2 := if f.x.getLsbD 3 then s1.updDir (pa / 128) (·.own st.myClus st.upden false) else s1.dirReadAt st.myClus pa 1
    let drop := Config.dropPref st.fresh
    .ok { s1 with tlb := if drop then st.tlb else s2.tlb, dir := if drop then st.dir else s2.dir }
  | _ => .ok st

/-- WBL and INVL: an outsider's has no effect on a line that a compact pins. -/
def State.lineOp (s : State) (va : Word) (g : DirEnt → DirEnt) : Eff :=
  match ({ s with poison := [] } : State).check s.whoMe (lineAcc va) with
  | .ok pa t => .ok ((s.fillTlb s.myDom va.toNat t).updDir (pa / 128) g)
  | .park _ _ => .ok s
  | c => .error c.stop

/-- WBL: a line of a frame in the tile's frame store is written back from there (01 R30). -/
def execWbl (f : MemF) (s : State) := s.runI 0x241 f.hd [] fun st => do
  let s1 ← st.lineOp (st.memEa f) (·.writeBack st.myClus)
  return match st.translate st.myDom (st.memEa f).toNat with
    | .ok t => s1.writeBackLine (t.pa / 128)
    | .error _ => s1
def execInvl (f : MemF) (s : State) := s.runI 0x242 f.hd [] fun st => st.lineOp (st.memEa f) (·.drop st.myClus)

/-- ZEROL (07 R167). -/
def execZerol (f : MemF) (s : State) := s.runI 0x243 f.hd [] fun st => do
  let va := st.memEa f
  let a : Acc := { va := BitVec.ofNat 64 (alignDown va.toNat 128), n := 128, al := 1, wr := true }
  stallIf (st.spanWait a.va 128 true)
  let (pa, t) ← st.pass ((st.check st.whoMe a).atAddr va)
  return st.writeAt st.whoMe a pa t 0

/-! Pinning (07 R168-R170). -/

/-- What PIN and UNPIN find at a page. -/
structure PinPage where
  pa : Nat
  lines : List DirEnt

/-- Checks 1 to 5 for the slab page of an address, after every earlier access of the task (07 R168, R169). -/
def State.pinPage (s : State) (va : Word) : Except Stop PinPage := do
  stallIf s.relWait
  let (pa, _) ← s.pass (s.check15 { va := va, n := 1, al := 1, wr := true })
  let page := alignDown pa 16384
  if s.lost.contains (homeDie page) then .error (trapOf cHomeLost va true)
  else
    stallIf (s.folding page)
    match (pageLines page).find? fun l => (s.dirEnt l).st matches .l _ || !s.mayPass l s.me.party with
    | some l => .error (.locked l)
    | none => return { pa := page, lines := (pageLines page).map s.dirEnt }

/-- This cluster's task pin of a page in the current task's domain. -/
def State.myPin (s : State) (page : Nat) : Bool :=
  (s.clus s.myClus).pins.any fun p => p.pa == page && p.comp == 0 && p.dom == s.myDom

/-- The status of PIN (07 R168). A cluster that has no room gives 2, also where a line of the page is pinned (assumption 105). -/
def State.pinStatus (s : State) (p : PinPage) : Nat :=
  if s.myPin p.pa then 1
  else if 384 ≤ (s.clus s.myClus).pins.length then 2
  else if p.lines.any (fun e => e.pinnedBy.isSome) || s.signingPage p.pa then 3
  else 0

/-- The 128 conversions of 07 R169. -/
def State.pinLines (s : State) (page : Nat) (va : Word) : State :=
  let s1 := (pageLines page).foldl (fun st l => st.updDir l fun e => { e.calm with st := .p 0 s.myClus }) s
  s1.updClus s.myClus fun c =>
    { c with pins := c.pins ++ [{ pa := page, va := alignDown va.toNat 16384, dom := s.myDom, comp := 0, task := s.cur }] }

def execPin (f : MemF) (s : State) := s.runI 0x280 f.hd [f.d] fun st => do
  let va := st.memEa f
  let p ← st.pinPage va
  let r := st.pinStatus p
  ((if r = 0 then st.pinLines p.pa va else st).unqueue (.party st.me.party)).writeDst f.d (BitVec.ofNat 64 r)

/-- The page's release (07 R170). -/
def State.unpinLines (s : State) (page : Nat) : State :=
  let s1 := (pageLines page).foldl (fun st l => st.updDir l (·.dropPin s.myClus false)) s
  s1.updClus s.myClus fun c => { c with pins := c.pins.filter fun p => !(p.pa == page && p.comp == 0) }

def execUnpin (f : MemF) (s : State) := s.runI 0x281 f.hd [f.d] fun st => do
  let va := st.memEa f
  let p ← st.pinPage va
  if p.lines.any fun e => match e.pinnedBy with
    | some (n, _) => n != 0
    | none => false then .error (trapOf cPinned va true)
  else
    let r : Word := if st.myPin p.pa then 0 else 1
    ((if st.myPin p.pa then st.unpinLines p.pa else st).unqueue (.party st.me.party)).writeDst f.d r

/-! Atomic read-modify-write (07 R172-R175). -/

/-- What an atomic operation of cluster `c` does to the directory (07 R173, 20 R386). -/
def DirEnt.atomicOp (e : DirEnt) (c : Nat) (far upden : Bool) : DirEnt := if far then e.far else e.ownAtomic c upden

/-- One indivisible read-modify-write of `n` bytes at `va`: `g` gives what is stored, if anything is. The result is the
old value. Whether it writes decides what it conflicts with, and a poisoned word is found after that (07 R161 step 7). -/
def State.rmw (s : State) (va : Word) (n : Nat) (order : Nat) (inst : ScopeInst) (far : Bool) (g : Nat → Option Nat) :
    Except Stop (Nat × State) := do
  stallIf (s.spanWait va n true || (ordRel order && s.relWait))
  let a : Acc := { va := va, n := n, al := n, wr := true, data := false, acq := acqInst order inst }
  let (pa, t) ← s.pass (({ s with wit := [] } : State).check s.whoMe a)
  let old := s.mem.num pa n
  let who := s.whoMe
  let wr := (g old).isSome
  let cs := if t.chk then s.conflictsAt pa n who.party (Clock.join who.clk (s.acqAt pa n a.acq who.tile)) wr false else []
  if !cs.isEmpty then .error (.trap { cause := cConflict, addr := va, w := true, pw := cs.any (·.wr) })
  else if (wordsOf pa n).any s.poison.contains then .error (trapOf cMemCheck va true)
  else if t.chk && s.shadowFull pa n ({ a with wr := wr }.wit who) then .error .stall
  else
    let s1 := (s.note who { a with wr := wr } pa t).updDir (pa / 128) (·.atomicOp s.myClus far s.upden)
    let s2 := s1.atomicRead pa n order inst
    match g old with
    | none => return (old, s2)
    | some new => return (old, (s2.atomicWrite pa n order inst true).setMem (s2.mem.write pa (natBytes new n)))

/-- The integer of an operand's low bytes, signed. -/
def amoS (n v : Nat) : Int := sint (8 * n) v

/-- The two floating-point operations of AMO (07 R172). -/
def amoFadd (x y : Nat) : Nat :=
  (roundFmt (XV.add 0 (dec 0 x) (dec 0 y)).1 0 0 0 false false).1
def amoFmax (x y : Nat) : Nat := exactCode 0 (XV.max (dec 0 x) (dec 0 y))

/-- AMO with operation `g` on the old value and the operand, both of `n` bytes (07 R172). -/
def State.amo (s : State) (f : MemF) (g : Nat → Nat → Nat → Nat) : Eff := do
  let inst ← s.memScope f
  let n := memN f
  let (b, s1) ← s.readSrc f.b
  let (old, s2) ← s1.rmw (s.memEa f) n f.order.toNat inst f.far fun o =>
    some (g n o (b.toNat % 2 ^ (8 * n)) % 2 ^ (8 * n))
  s2.writeDst f.d (memExt f.sgn n old)

/-- The AMO instructions (07 R172). -/
def State.runAmo (s : State) (opc : Nat) (f : MemF) (g : Nat → Nat → Nat → Nat) : Host.Outcome State Fault Refusal :=
  s.runI opc f.hd [f.d] fun st => st.amo f g

def execAmoAdd (f : MemF) (s : State) := s.runAmo 0x300 f fun _ o y => o + y
def execAmoAnd (f : MemF) (s : State) := s.runAmo 0x301 f fun _ o y => Nat.land o y
def execAmoOr (f : MemF) (s : State) := s.runAmo 0x302 f fun _ o y => Nat.lor o y
def execAmoXor (f : MemF) (s : State) := s.runAmo 0x303 f fun _ o y => Nat.xor o y
def execAmoSmin (f : MemF) (s : State) := s.runAmo 0x304 f fun n o y => if amoS n o ≤ amoS n y then o else y
def execAmoSmax (f : MemF) (s : State) := s.runAmo 0x305 f fun n o y => if amoS n o ≤ amoS n y then y else o
def execAmoZmin (f : MemF) (s : State) := s.runAmo 0x306 f fun _ o y => Nat.min o y
def execAmoZmax (f : MemF) (s : State) := s.runAmo 0x307 f fun _ o y => Nat.max o y
def execAmoSwap (f : MemF) (s : State) := s.runAmo 0x308 f fun _ _ y => y
def execAmoFaddFp32 (f : MemF) (s : State) := s.runAmo 0x309 f fun _ o y => amoFadd o y
def execAmoFmaxFp32 (f : MemF) (s : State) := s.runAmo 0x30A f fun _ o y => amoFmax o y

/-- The register after a register of a pair (07 R175). -/
def regNext : Reg → Reg
  | .s n => .s (n + 1)
  | r => r

/-- A source of CAS: the pair for 16 bytes. -/
def State.casSrc (s : State) (r : Reg) (n : Nat) : Except Stop (Nat × State) := do
  let (lo, s1) ← s.readSrc r
  if n = 16 then
    let (hi, s2) ← s1.readSrc (regNext r)
    return (lo.toNat + hi.toNat * 2 ^ 64, s2)
  else return (lo.toNat % 2 ^ (8 * n), s1)

/-- CAS (07 R175). -/
def State.cas (s : State) (f : MemF) : Eff := do
  let inst ← s.memScope f
  let n := memN f
  let (e, s1) ← s.casSrc f.b n
  let (v, s2) ← s1.casSrc f.c n
  let (old, s3) ← s2.rmw (s.memEa f) n f.order.toNat inst f.far fun o => if o = e then some v else none
  let s4 ← s3.writeDst f.d (memExt f.sgn n old)
  if n = 16 then s4.writeDst (regNext f.d) (BitVec.ofNat 64 (old / 2 ^ 64)) else return s4

def execCas (f : MemF) (s : State) := s.runI 0x340 f.hd [f.d] fun st => st.cas f

/-! FENCE (07 R183) and I/O (07 R184-R186). -/

/-- FENCE: the tile's copies of code lines are discarded (04 R106). I/O accesses complete one at a time here, so `.io`
finds none outstanding (assumption 33). -/
def execFence (f : MemF) (s : State) := s.runI 0x342 f.hd [] fun st => do
  let inst ← st.memScope f
  stallIf (!st.me.vDone || (ordRel f.order.toNat && st.relWait))
  let tl := st.tile st.myTile
  return (st.setTile st.myTile { tl with lines := [] }).fence f.order.toNat inst

def cIo : Nat := 0x1D

/-- The PCIe place of an I/O access (07 R161 steps 1 to 5, R184). IOST too needs read access; its fault is a write's. -/
def State.ioPlace (s : State) (va : Word) (n : Nat) (wr : Bool) : Except Stop (Nat × Nat) := do
  let (pa, _) ← s.pass (match s.check15 { va := va, n := n, al := n, wr := false, pcie := true } with
    | .trap t => .trap { t with w := wr }
    | c => c)
  match pciePort? pa with
  | some p => return (p, pa % 2 ^ 48)
  | none => .error (trapOf cPhys va wr)

/-- IOLD (07 R184-R186): one read transaction; the instruction waits for its completion. -/
def execIold (f : MemF) (s : State) := s.runI 0x380 f.hd [] fun st => do
  let va := st.memEa f
  let n := memN f
  match st.me.io with
  | none =>
    let (port, addr) ← st.ioPlace va n false
    .error (.hold ((st.upd fun t =>
      { t with io := some { port := port, addr := addr, n := n, t0 := st.cycle, result := none } }).emit
        (.ioRead port addr n)))
  | some r =>
    match r.result with
    | none => .error (.hold st)
    | some (0, v) => (st.upd fun t => { t with io := none }).writeDst f.d (memExt f.sgn n (v.toNat % 2 ^ (8 * n)))
    | some (c, _) =>
      .error (.trapIn (st.upd fun t => { t with io := none }) { cause := cIo, detail := c, addr := va })

/-- A posted write leaves the device; an error that it meets outside is counted for the firing program (07 R186). -/
def State.postWrite (s : State) (port addr : Nat) (bytes : List Byte) : State :=
  { s.emit (.ioWrite port addr bytes) with
    ioErrors := s.ioErrors + (if Config.postedFails s.fresh then 1 else 0), fresh := s.fresh + 1 }

/-- IOST (07 R184, R185): one posted write transaction. -/
def execIost (f : MemF) (s : State) := s.runI 0x381 f.hd [] fun st => do
  let va := st.memEa f
  let n := memN f
  let (b, s1) ← st.readSrc f.b
  stallIf (ordRel f.order.toNat && st.relWait)
  let (port, addr) ← st.ioPlace va n true
  return s1.postWrite port addr (natBytes b.toNat n)

/-- IOLD_COMPLETION (07 R186): status 0 carries data, 1 is Unsupported Request, 2 Completer Abort. -/
def State.ioComplete (s : State) (t status : Nat) (data : Word) : State :=
  s.updTask t fun x => match x.io with
    | some r => if r.result.isNone then { x with io := some { r with result := some (Nat.min status 2, data) } } else x
    | none => x

/-- IOLD_TIMEOUT (07 R186, 22 R418): no completion within 65,536 ck. -/
def State.ioTimeout (s : State) (t : Nat) : State :=
  s.updTask t fun x => match x.io with
    | some r =>
      if r.result.isNone && decide (65536 ≤ (s.cycle - r.t0).toNat) then { x with io := some { r with result := some (3, 0) } }
      else x
    | none => x

end Sys2Proof.Machine
end

