-- ==== Sys2Proof/Machine/Sync.lean ====
section
/-! DEFINITION. Cones and messages as instructions (10 R259-R273). The cone unit itself is in Cones.lean. -/

namespace Sys2Proof.Machine

open Sys2Proof

/-- Whether an instruction of the engines family runs, as `runI` does. -/
def State.runEng (s : State) (opc : Nat) (f : EngF) (ds : List Reg) (body : State → Eff) :
    Host.Outcome State Fault Refusal := s.runI opc f.hd ds body

/-- Enters a restartable wait (02 R64, 10 R269). -/
def State.waitFor (s : State) (kind operand : Nat) (deadline : Option Word) : Eff :=
  .error (.hold (s.upd fun t =>
    { t with ucnt := t.unum, wait := BitVec.ofNat 64 (operand * 256 + kind), wake := none, deadline := deadline }))

/-- The result of a wait of a kind that has ended, and the state without the wait. -/
def State.woken (s : State) (kind : Nat) : Option (Nat × State) :=
  if waitKind s.me.wait = kind then s.me.wake.map fun r => (r, s.upd (·.dropWait)) else none

/-- The deadline operand (10 R260, R270). -/
def State.deadlineOf (s : State) (f : EngF) : Except Stop (Option Word × State) :=
  if f.tmo then (s.readSrc f.c).map fun p => (some p.1, p.2) else .ok (none, s)

/-- CYCLE has reached a deadline (02 R64). -/
def State.past (s : State) (d : Option Word) : Bool :=
  match d with
  | some x => decide (x.toNat ≤ s.cycle.toNat)
  | none => false

/-! Cones (10 R260-R268). -/

/-- The cone of a cone field: the issuing tile's, or that of tile-in-cluster CTILE (10 R252). -/
def State.coneOf (s : State) (f : EngF) : Nat := 128 * (if f.csel then f.ctile else ticOf s.myTile) + f.cone.toNat

/-- The conditions of 10 R261 for an operation of the current task. -/
def State.needCone (s : State) (cid : Nat) (modes : List Nat) : Except Stop Unit :=
  if s.coneOk s.myClus cid s.myDom modes then .ok () else .error (trapOf cConeState)

/-- The release of ARRIVE, EXPECT, EVSIG and MUTEXU; RLX publishes nothing (10 R264). -/
def State.coneRelease (s : State) (rlx : Bool) : Except Stop (Clock × State) :=
  if rlx then .ok ([], s)
  else if s.relWait then .error .stall
  else .ok (s.release s.cur)

/-- Enters the queue of those that wait at a cone (kind 1): for its phase, or with `mutex` to hold it. -/
def State.coneWait (s : State) (cid : Nat) (phase arrive mutex : Bool) (deadline : Option Word) : Eff :=
  let c := s.cone s.myClus cid
  let add := fun (l : List Nat) => if l.contains s.cur then l else l ++ [s.cur]
  let s1 := s.setCone s.myClus cid
    (if mutex then { c with lockers := add c.lockers } else { c with waiters := add c.waiters })
  s1.waitFor 1 ((if phase then 1 else 0) + 2 * cid + (if arrive then 2048 else 0) + if mutex then 4096 else 0) deadline

/-- CINIT (10 R261, R262). -/
def execCinit (f : EngF) (s : State) := s.runEng 0x980 f [] fun st => do
  let (a, s1) ← st.readSrc f.a
  let cid := st.coneOf f
  let mode := f.x.toNat % 4
  let c := st.cone st.myClus cid
  if st.coneReserved st.myClus cid || (c.init && c.dom != st.myDom && st.myDom != 0) || !c.waiters.isEmpty || !c.lockers.isEmpty then
    .error (trapOf cConeState)
  else if mode = 0 && a.toNat % 65536 = 0 then .error (trapOf cOperand)
  else
    .ok (s1.setCone st.myClus cid
      { Cone.reset with init := true, mode := mode, dom := st.myDom, e := if mode = 0 then a.toNat % 65536 else 0 })

/-- A local arrival that registers `n` bytes (10 R263). -/
def State.localArrive (s : State) (cid n : Nat) (k : Clock) : Eff :=
  match s.arriveCone s.myClus cid n k with
  | some s1 => .ok s1
  | none => .error (trapOf cConeCount)

/-- ARRIVE (10 R263, R264). -/
def execArrive (f : EngF) (s : State) := s.runEng 0x981 f [] fun st => do
  let (_, s1) ← st.deadlineOf f
  let cid := st.coneOf f
  st.needCone cid [0]
  let (k, s2) ← s1.coneRelease f.rlx
  s2.localArrive cid 0 k

/-- The bits of STATUS that R266 uses. -/
def stAP : Nat := 31
def apCone (w : Word) : Nat := Word.bits w 41 32

/-- The wait of an arrive-and-wait has ended (10 R266, 21 R396): AP is clear and names no cone. -/
def State.clearAp (s : State) : State :=
  s.upd fun t => { t with status := setBits (setBit t.status stAP false) 41 32 0 }

/-- ARRIVE.w (10 R266): one arrival, then the wait for the phase it read. The arrival is not repeated while AP names this
cone. -/
def execArriveW (f : EngF) (s : State) := s.runEng 0x981 f [f.d] fun st => do
  let (dl, s1) ← st.deadlineOf f
  let cid := st.coneOf f
  match s1.woken 1 with
  | some (r, s2) => s2.clearAp.writeDst f.d (BitVec.ofNat 64 r)
  | none =>
    st.needCone cid [0]
    if bit1 st.me.status stAP && apCone st.me.status == cid then
      let c := st.cone st.myClus cid
      if c.phase != st.me.apPhase then (s1.clearAp.acquire st.cur c.done).writeDst f.d 0
      else if st.past dl then s1.clearAp.writeDst f.d 1
      else st.coneWait cid st.me.apPhase true false dl
    else
      let phase := (st.cone st.myClus cid).phase
      let (k, s2) ← s1.coneRelease f.rlx
      let s3 ← s2.localArrive cid 0 k
      let c := s3.cone st.myClus cid
      if c.phase != phase then (s3.clearAp.acquire st.cur c.done).writeDst f.d 0
      else if st.past dl then s3.clearAp.writeDst f.d 1
      else
        let (k2, u2) ← st.coneRelease f.rlx
        let u3 ← u2.localArrive cid 0 k2
        (u3.upd fun t =>
          { t with status := setBits (setBit t.status stAP true) 41 32 cid, apPhase := phase }).coneWait cid phase true false dl

/-- A target word operand (10 R248). -/
def needTarget (w : Word) : Except Stop Unit := if twBad w then .error (trapOf cOperand) else .ok ()

/-- ARRIVE.rmt (10 R264). -/
def execArriveRmt (f : EngF) (s : State) := s.runEng 0x981 f [] fun st => do
  let (b, s1) ← st.readSrc f.b
  let (_, s2) ← s1.deadlineOf f
  needTarget b
  let (k, s3) ← s2.coneRelease f.rlx
  return s3.sendArrival b false k

/-- EXPECT (10 R261, R263). -/
def execExpect (f : EngF) (s : State) := s.runEng 0x982 f [] fun st => do
  let (a, s1) ← st.readSrc f.a
  let cid := st.coneOf f
  st.needCone cid [0]
  if 2 ^ 31 ≤ a.toNat then .error (trapOf cOperand)
  else
    let (k, s2) ← s1.coneRelease f.rlx
    s2.localArrive cid a.toNat k

/-- CWAIT (10 R265). -/
def execCwait (f : EngF) (s : State) := s.runEng 0x983 f [f.d] fun st => do
  let (a, s1) ← st.readSrc f.a
  let (dl, s2) ← s1.deadlineOf f
  let cid := st.coneOf f
  match s2.woken 1 with
  | some (r, s3) => s3.writeDst f.d (BitVec.ofNat 64 r)
  | none =>
    st.needCone cid [0, 1, 2]
    let c := st.cone st.myClus cid
    if c.phase != a.getLsbD 0 then (s2.acquire st.cur c.done).writeDst f.d 0
    else if st.past dl then s2.writeDst f.d 1
    else st.coneWait cid (a.getLsbD 0) false false dl

/-- What CTEST reads (10 R267). -/
def Cone.testWord (c : Cone) (pb : Bool) : Word :=
  if pb then BitVec.ofInt 64 c.pb
  else BitVec.ofNat 64 (c.e * 2 ^ 48 + c.a * 2 ^ 32 + (if c.init then 8 else 0) + c.mode * 2 + if c.phase then 1 else 0)

/-- CTEST (10 R267). -/
def execCtest (f : EngF) (s : State) := s.runEng 0x984 f [f.d] fun st => do
  let cid := st.coneOf f
  st.needCone cid [0, 1, 2]
  let c := st.cone st.myClus cid
  (st.acquire st.cur c.done).writeDst f.d (c.testWord f.bit33)

/-- EVSIG (10 R261, R264). -/
def execEvsig (f : EngF) (s : State) := s.runEng 0x985 f [] fun st => do
  let cid := st.coneOf f
  st.needCone cid [1]
  let (k, s1) ← st.coneRelease f.rlx
  return s1.flipCone st.myClus cid k

/-- EVSIG.rmt (10 R264). -/
def execEvsigRmt (f : EngF) (s : State) := s.runEng 0x985 f [] fun st => do
  let (b, s1) ← st.readSrc f.b
  needTarget b
  let (k, s2) ← s1.coneRelease f.rlx
  return s2.sendArrival b true k

/-- The current task's handle (02 R68). -/
def State.myHandle (s : State) : Word := handleOf s.me.gen s.cur

/-- MUTEXL (10 R268). -/
def execMutexl (f : EngF) (s : State) := s.runEng 0x986 f [f.d] fun st => do
  let (dl, s1) ← st.deadlineOf f
  let cid := st.coneOf f
  match s1.woken 1 with
  | some (r, s2) => s2.writeDst f.d (BitVec.ofNat 64 r)
  | none =>
    st.needCone cid [2]
    let c := st.cone st.myClus cid
    if c.holder = 0 then
      ((s1.setCone st.myClus cid { c with holder := st.myHandle }).acquire st.cur c.done).writeDst f.d 0
    else if st.past dl then s1.writeDst f.d 1
    else st.coneWait cid c.phase false true dl

/-- MUTEXU (10 R268). -/
def execMutexu (f : EngF) (s : State) := s.runEng 0x987 f [] fun st => do
  let cid := st.coneOf f
  st.needCone cid [2]
  if (st.cone st.myClus cid).holder != st.myHandle then .error (trapOf cConeState)
  else
    let (k, s1) ← st.coneRelease false
    return s1.passMutex st.myClus cid 0 k

/-! Messages (10 R270-R273). -/

/-- Reads a structure of `n` bytes at `va` for an instruction; FAULTADDR is the effective address (10 R247). -/
def State.structAt (s : State) (va : Word) (n al : Nat) : Except Stop (Nat × State) := do
  stallIf (s.spanWait va n false)
  match s.readStruct s.whoMe va n al with
  | .ok r => .ok r
  | .error c => .error (c.atAddr va).stop

/-- Sends that a task may have outstanding (10 R271). -/
def sendCredits : Nat := 16

/-- MSEND (10 R270, R271). -/
def execMsend (f : EngF) (s : State) := s.runEng 0x9C0 f [] fun st => do
  let s0 := ((st.woken 6).map (·.2)).getD st
  if sendCredits ≤ st.me.sends.length then st.waitFor 6 0 none
  else
    let (h, s1) ← s0.readSrc f.a
    let (b, s2) ← s1.readSrc f.b
    let (words, s3) ←
      if f.blk then do
        let (x, u) ← s2.structAt b (8 * f.words) 8
        pure ((List.range f.words).map fun i => (BitVec.ofNat 64 (x / 2 ^ (64 * i)) : Word), u)
      else pure ([b], s2)
    let (dev, s4) ← if f.xdev then (s3.readSrc f.c).map fun p => (p.1.toNat, p.2) else .ok (s3.devnum.toNat, s3)
    stallIf s4.relWait
    let (k, s5) := s4.release s4.cur
    return s5.sendMessage dev h f.mr words f.blk f.d f.trapm k

/-- The number of an m register field. -/
def mNum : Reg → Nat
  | .m n => n.toNat
  | _ => 0

/-- MTAKE (10 R273). -/
def execMtake (f : EngF) (s : State) := s.runEng 0x9C1 f [] fun st => do
  let k := mNum f.a
  let t := st.me
  let v := t.m.toList.getD k 0
  if t.isFull k then
    let s1 := (st.acquire st.cur (t.mclk.toList.getD k [])).upd fun x => (x.setM k v false []).refill k
    s1.writeDst f.d v
  else st.writeDst f.d v

/-- MPEEK (10 R273). -/
def execMpeek (f : EngF) (s : State) := s.runEng 0x9C2 f [] fun st => do
  let k := mNum f.a
  if st.me.isFull k then (st.acquire st.cur (st.me.mclk.toList.getD k [])).writeDst f.d 1 else st.writeDst f.d 0

/-- MWAITF (10 R273). -/
def execMwaitf (f : EngF) (s : State) := s.runEng 0x9C3 f [] fun st => do
  let k := mNum f.a
  let (dl, s1) ← st.deadlineOf f
  let got := fun (u : State) => (u.acquire st.cur (st.me.mclk.toList.getD k [])).writeDst f.d 0
  match s1.woken 2 with
  | some (0, s2) => got s2
  | some (_, s2) => s2.writeDst f.d 1
  | none =>
    if st.me.isFull k then got s1
    else if st.past dl then s1.writeDst f.d 1
    else st.waitFor 2 k dl

/-- WAIT_DEADLINE (02 R64): a timed wait of kind 1 or 2 ends with the timeout result. -/
def State.waitDeadline (s : State) (t : Nat) : State :=
  match s.task? t with
  | none => s
  | some x =>
    if s.past x.deadline then
      if x.waits 1 then (s.leaveCones t).wake t 1 1
      else if x.waits 2 then s.wake t 2 1
      else s
    else s

end Sys2Proof.Machine
end

