-- ==== Sys2Proof/Machine/TaskIssue.lean ====
section
/-! DEFINITION. SPAWN, JOIN, GANG, ranges and TSELF (10 R274-R278), copies and SLEEPT (10 R249-R258) as instructions. -/

namespace Sys2Proof.Machine

open Sys2Proof

/-- eff_addr of an instruction of the engines family (10 R247). -/
def State.engEa (s : State) (f : EngF) : Word := s.effAddr f.a f.imm

/-- Field `i` of a structure of 8-byte fields. -/
def field64 (x i : Nat) : Word := BitVec.ofNat 64 (x / 2 ^ (64 * i))

/-- A refusal: status 1, or the message trap (10 R275, R277). -/
def State.refusal (s : State) (f : EngF) (detail : Nat) : Eff :=
  if f.trapm then .error (.trap { cause := cMessage, detail := detail }) else s.writeDst f.d 1

/-! Tasks and gangs. -/

/-- SPAWN (10 R275, 02 R48-R51). -/
def execSpawn (f : EngF) (s : State) := s.runEng 0xA00 f [f.d] fun st => do
  let va := st.engEa f
  stallIf st.relWait
  let (x, s1) ← st.structAt va 32 32
  let (k, s2) := s1.release s1.cur
  match s2.pushRecord (field64 x 0) (field64 x 1) (field64 x 2) (field64 x 3) st.myDom st.myTile k false with
  | .format => .error (trapOf cRecord va)
  | .privilege => .error (trapOf cPrivilege va)
  | .full _ => s1.refusal f 3
  | .ok s3 => s3.writeDst f.d 0

/-- What a counter's JOIN gives its task: the release and the acquire (02 R55). -/
def State.joined (s : State) (acq : Clock) : State := ((s.acquire s.cur acq).release s.cur).2

/-- JOIN (10 R276, 02 R55). -/
def execJoin (f : EngF) (s : State) := s.runEng 0xA01 f [] fun st => do
  let (b, s1) ← if f.bit32 then st.readSrc f.b else .ok (1, st)
  stallIf st.relWait
  match s1.joinAt st.whoMe (st.engEa f) b st.me.fenceRel with
  | .bad c => .error c.stop
  | .done left acq s2 => (s2.joined acq).writeDst f.d left
  | .badPush t acq s2 => do
    let s3 ← (s2.joined acq).writeDst f.d 0
    .error (.trapKeep s3 t)
  | .held rp die acq s2 => do
    let s3 ← (s2.joined acq).writeDst f.d 0
    return s3.upd fun t => { t with wait := joinWait rp, wake := none, joinRec := some rp, joinDie := die }

/-- The SET word (02 R56). -/
def setDom (x : Word) : Nat := Word.bits x 43 36
def setPrio (x : Word) : Nat := Word.bits x 35 32
def setTmask (x : Word) : BitVec 8 := x.extractLsb' 19 8
def setCcnt (x : Word) : Nat := Word.bits x 18 9
def setCidx (x : Word) : Nat := Word.bits x 8 0

/-- The format checks of a gang descriptor (02 R57). -/
def State.gangOk (s : State) (code set joinp : Word) : Bool :=
  Word.bits set 63 44 == 0 && Word.bits set 31 27 == 0 && setTmask set != 0 && setCcnt set != 0
    && decide (setCidx set + setCcnt set - 1 < s.numPresent) && !highBits code && !highBits joinp

/-- Pending gangs that a device holds at most (10 R277). -/
def pendingGangs : Nat := 256

/-- GANG (10 R277, 02 R56-R61). -/
def execGang (f : EngF) (s : State) := s.runEng 0xA02 f [f.d] fun st => do
  let va := st.engEa f
  stallIf st.relWait
  let (x, s1) ← st.structAt va 32 32
  let code := field64 x 0
  let set := field64 x 2
  let joinp := field64 x 3
  if !st.gangOk code set joinp then .error (trapOf cRecord va)
  else if st.myDom != 0 && setDom set != st.myDom then .error (trapOf cPrivilege va)
  else if pendingGangs ≤ (st.gangs.filter fun g => g.2.pending && !g.2.started).length then s1.refusal f 4
  else
    let (k, s2) := s1.release s1.cur
    let (id, s3) := s2.newId
    let g : Gang :=
      { code := code, arg := field64 x 1, dom := setDom set, prio := setPrio set, since := st.cycle, cidx := setCidx set
        tmask := setTmask set, tiles := st.gangTiles (setCidx set) (setCcnt set) (setTmask set), joinp := joinp
        started := false, pending := true, seq := s3.gangSeq, resv := [], tasks := [], halted := false, stopping := false, clk := k
        endClk := [] }
    (({ s3 with gangSeq := s3.gangSeq + 1 } : State).setGang id g).writeDst f.d 0

/-- TSELF (10 R278). -/
def execTself (f : EngF) (s : State) := s.runEng 0xA05 f [f.d] fun st => st.writeDst f.d st.myHandle

/-! Ranges (10 R278, 02 R69-R71). -/

/-- The request at position `idx` of a die's wire unit is served (WIRE_REQUEST_SERVE). -/
def State.serveWire (s : State) (die idx : Nat) : State :=
  let d := s.die die
  match d.wireReqs[idx]? with
  | none => s
  | some r =>
    let ans := d.wireServe (r.range % 64) (s.task r.task).dom r.init
    let d1 := (ans.map (·.2)).getD d
    (s.setDie die { d1 with wireReqs := d.wireReqs.eraseIdx idx }).updTask r.task fun t =>
      { t with wire := some (match ans with
          | none => .fault
          | some (p, _) => .got p.1 p.2) }

/-- A request goes to the wire unit of a range's die; the instruction completes with its answer, which is that of this
request: a stop of the task withdraws one that is not answered and waits for the completion of one that is
(`Task.midBundle`), and a trap of its own bundle gives both up (`dropWire`). Where the units serve in the same turn and no other request waits there, the answer comes at
once. -/
def State.askWire (s : State) (range : Nat) (init : Option (Word × Word × BitVec 16 × BitVec 32))
    (done : State → Word → Word → Eff) : Eff :=
  let answer := fun (u : State) => match u.me.wire with
    | some (.got a b) => done (u.upd fun t => { t with wire := none }) a b
    | some .fault => .error (.trapIn (s.upd fun t => { t with wire := none }) { cause := cWire })
    | _ => .error (.hold s)
  match s.me.wire with
  | some _ => answer s
  | none =>
    let die := range / 64
    let s1 := (s.updDie die fun d =>
      { d with wireReqs := d.wireReqs ++ [{ task := s.cur, range := range, init := init }] }).upd
        fun t => { t with wire := some .asked }
    if s.cx.now && (s.die die).wireReqs.isEmpty then answer (s1.serveWire die 0) else .error (.hold s1)

/-- RINIT (10 R278, 02 R70). -/
def execRinit (f : EngF) (s : State) := s.runEng 0xA03 f [] fun st => do
  let (b, s1) ← st.readSrc f.b
  if st.me.wire.isSome then s1.askWire b.toNat none fun u _ _ => .ok u
  else
    let (x, s2) ← s1.structAt (st.engEa f) 32 8
    let p := numAt x 16 2
    let mn := numAt x 20 4
    if 512 ≤ b.toNat || p = 0 || mn = 0 || numAt x 18 2 != 0 || numAt x 24 8 != 0 then .error (trapOf cOperand)
    else s2.askWire b.toNat (some (field64 x 0, field64 x 1, BitVec.ofNat 16 p, BitVec.ofNat 32 mn)) fun u _ _ => .ok u

/-- RTAKE (10 R278, 02 R71). -/
def execRtake (f : EngF) (s : State) := s.runEng 0xA04 f [f.d, f.c] fun st => do
  let (b, s1) ← st.readSrc f.b
  if 512 ≤ b.toNat then .error (trapOf cOperand)
  else
    s1.askWire b.toNat none fun u start size => do
      let u1 ← u.writeDst f.d start
      u1.writeDst f.c size

/-! Copies (10 R249-R257, 14 R349). -/

/-- The issue stalls at either limit (10 R253). -/
def State.copyRoom (s : State) : Except Stop Unit :=
  let mine := (s.clus s.myClus).copies.filter fun c => c.tile == s.myTile
  stallIf (decide (tileCopies ≤ mine.length) || !s.clusRoom s.myClus)

/-- The completion cone that CN names, within the issuing cluster (10 R252). -/
def State.completionCone (s : State) (f : EngF) : Option Nat := if f.bit33 then some (s.coneOf f) else none

/-- Enters a command in the queues of `mask` with its promise, which d receives. It is a new party, of which the writes of
its first run are a part (11 R294, R295). -/
def State.pushCopy (s : State) (f : EngF) (mask : BitVec 8) (desc : Word) (op : CopyOp) (heavy : Bool) (promise : Word)
    (clk : Clock) : Eff :=
  let (id, s0) := s.newId
  let (reads, s1) := s0.newParty
  let (writes, s2) := s1.partParty reads
  let c : Copy :=
    { id := id, task := s.cur, party := reads, dom := s.myDom, tile := s.myTile, ended := false, mask := mask, desc := desc
      op := op, cone := s.completionCone f, promise := promise, late := false, run := .queued, done := 0, fcause := 0
      fwrite := false, faddr := 0, heavy := heavy, granted := false, clk := clk, wparties := [writes], unacked := 0
      bad := none, flags := 0 }
  (s2.updClus s.myClus fun k =>
    { k with
      copies := k.copies ++ [c]
      lastPromise := (maskQueues mask).foldl (fun m q => m.set q promise) k.lastPromise }).writeDst f.d promise

def cCopyFormat : Nat := 0x1A

/-- A copy whose descriptor is `x`. -/
def State.startCopy (s : State) (f : EngF) (x : Nat) (desc layout : Word) (dest : Option Word) (recv : Word) : Eff :=
  let m := numAt x
  if !copyOk m layout then .error (trapOf cCopyFormat desc)
  else
    let ctl := field64 x 2
    let sf := Word.bits ctl 4 0
    let df := Word.bits ctl 9 5
    let op := Word.bits ctl 15 14
    let dims := copyDims m
    let heavy := decide (2 ^ 20 < divUp (copyTotal dims * fmtWidth df) 8)
    let k := s.clus s.myClus
    let extra := match dest with
      | some d => if twDev d = s.devnum.toNat then 0 else (s.die (dieOf s.myTile)).xdelay.toNat
      | none => 0
    let q := f.que.toNat
    let promise := promiseOf s.cycle (k.lastPromise.getD q 0) (copyFlits sf df op dims) k.throttle extra heavy
    let (c, s1) := s.release s.cur
    s1.pushCopy f (BitVec.ofNat 8 (2 ^ q)) desc
      (.copy (field64 x 0) (field64 x 1) (field64 x 3) sf df op (Word.bits ctl 18 16) (bit1 ctl 19) dims layout dest recv)
      heavy promise c

/-- CPY (10 R249-R253). -/
def execCpy (f : EngF) (s : State) := s.runEng 0x900 f [f.d] fun st => do
  let (layout, s1) ← st.readSrc f.b
  st.copyRoom
  stallIf st.relWait
  let va := st.engEa f
  let (x, s2) ← s1.structAt va 128 32
  s2.startCopy f x va layout none 0

/-- CPYR (10 R248, R252, R255). -/
def execCpyr (f : EngF) (s : State) := s.runEng 0x901 f [f.d] fun st => do
  let (dest, s1) ← st.readSrc f.b
  let (recv, s2) ← s1.readSrc f.c
  st.copyRoom
  stallIf st.relWait
  if twBad dest || twCid dest != 0 || twBad recv then .error (trapOf cOperand)
  else
    let va := st.engEa f
    let (x, s3) ← s2.structAt va 128 32
    s3.startCopy f x va 0 (some dest) recv

/-- CPYQF (10 R252, R257). -/
def execCpyqf (f : EngF) (s : State) := s.runEng 0x902 f [f.d] fun st => do
  st.copyRoom
  let mask := f.imm.setWidth 8
  let k := st.clus st.myClus
  let promise := (maskQueues mask).foldl (fun m q => Nat.max m (k.lastPromise.getD q 0).toNat) st.cycle.toNat
  st.pushCopy f mask 0 .fence false (BitVec.ofNat 64 promise) []

/-- The end of SLEEPT at a deadline (10 R258): a late-promise trap for an unfinished copy that has raised none, else an
acquire of the copies completed. `s0` is the state before the operand is read. -/
def State.sleepEnds (s0 s : State) (a : Word) : Eff :=
  let due := fun (c : Copy) => c.task == s.cur && !c.ended && decide (c.promise.toNat ≤ a.toNat) && !c.late
    && c.run != .faulted && c.op != .fence
  match (s.clus s.myClus).copies.find? due with
  | some c =>
    .error (.trapIn (s0.updCopy s.myClus c.id fun d => { d with late := true })
      { cause := cLate, info := some (c.promise.setWidth 32) })
  | none =>
    let got := s.me.copied.filter fun p => decide (p.1.toNat ≤ a.toNat)
    let k := got.foldl (fun k p => Clock.join k p.2) []
    .ok ((s.acquire s.cur k).upd fun t => { t with copied := t.copied.filter fun p => decide (a.toNat < p.1.toNat) })

/-- SLEEPT (10 R258). -/
def execSleept (f : EngF) (s : State) := s.runEng 0x940 f [] fun st => do
  let (a, s1) ← st.readSrc f.a
  if a.toNat ≤ st.cycle.toNat then st.sleepEnds (if waitKind st.me.wait = 3 then s1.upd (·.dropWait) else s1) a
  else st.waitFor 3 (a.toNat % 2 ^ 56) (some a)

/-- SLEEPT_EXPIRY (02 R64). -/
def State.sleeptExpiry (s : State) (t : Nat) : State :=
  match s.task? t with
  | none => s
  | some x => if x.waits 3 && s.past x.deadline then s.wake t 3 0 else s

end Sys2Proof.Machine
end

