-- ==== Sys2Proof/Machine/CompactIssue.lean ====
section
/-! DEFINITION. SIGN, STEP, DISSOLVE, CKPT and ABORT (10 R279-R281; 13 R319-R321, R326, R335, R336). -/

namespace Sys2Proof.Machine

open Sys2Proof

/-- The lowest compact number that no compact of the device holds (13 R320). -/
def State.freeCompact (s : State) : Nat :=
  (((List.range 1023).map (· + 1)).find? fun n => !s.compacts.any fun c => c.num == n).getD 0

/-- The compact that the first SIGN of a gang begins (13 R321). A structure that cannot be read gives the address of the
failure; one that fails a check of its form gives 0. Structures that cannot be read, or whose DEVLIST does not list this device
once, bind no other device (13 R319). -/
def State.newCompact (s : State) (num id g : Nat) (desc : Word) : Except Stop Compact :=
  let none' : Compact :=
    { num := num, id := id, gang := g, dom := s.myDom, st := .signing, step := 0, final := false, desc := desc, period := 0
      early := false, devs := [], masks := [], peers := [], pins := [], plan := [], others := [], otherPins := [], otherTabs := []
      ctl := 0, badAddr := some 0, shadowA := 0, shadowB := 0, issued := [], status := none, reports := [], ready := [], acks := []
      parties := [], signed := false, moving := false, stepIssued := [], dissolveIssued := [], arrivals := [], sending := []
      unacked := 0, ckpt := false, latestB := false, committed := none, stopPending := false, releaseOnResume := false, reason := 0
      raiser := 0, abortAt := 0, steps := [], clk := [], boundaryClk := [] }
  match s.readTables s.whoMe desc with
  | .error (.inl a) => .ok { none' with badAddr := some a }
  | .error (.inr c) => .error c.stop
  | .ok x =>
    if !(x.devs.contains s.devnum.toNat && decide x.devs.Nodup && x.devs.all (· < 1024)) then .ok none'
    else
      let ok := x.ok && ((s.gang? g).map fun y => s.gangMatches y x.devs x.masks).getD false
      .ok { none' with
            period := ctlPeriod x.ctl, early := ctlEarly x.ctl, ctl := x.ctl, devs := x.devs, masks := x.masks, pins := x.pins
            plan := x.plan, shadowA := x.shadowA, shadowB := x.shadowB, badAddr := if ok then none else some 0 }

/-- A failed SIGN of an earlier gang on these clusters is answered no more. -/
def State.dropFails (s : State) (ks : List Nat) : State :=
  { s with signFails := s.signFails.filter fun x => !x.cluss.any ks.contains }

/-- Whether a compact of another gang, in Signing too if `all`, has one of these clusters as a member (13 R321, R322). -/
def State.otherMember (s : State) (g : Nat) (ks : List Nat) (all : Bool) : Bool :=
  s.compacts.any fun c => c.gang != g && (all || c.st != .signing) && (s.memberClus c).any ks.contains

/-- SIGN (10 R280; 13 R319-R324). -/
def execSign (f : EngF) (s : State) := s.runEng 0xA40 f [f.d] fun st => do
  match st.me.signed with
  | some (some (r, addr)) =>
    let s1 := st.upd fun t => { t with signed := none }
    if r = 4 then .error (.trapIn s1 { cause := cCompactFormat, addr := addr }) else s1.writeDst f.d (BitVec.ofNat 64 r)
  | some none => .error (.hold st)
  | none =>
    match st.me.gang with
    | none => .error (trapOf cCompactState)
    | some g =>
      if !st.uniAllowed || st.otherMember g [st.myClus] true then .error (trapOf cCompactState)
      else
        stallIf st.relWait
        let desc := st.engEa f
        let join := fun (c : Compact) (u : State) =>
          let (k, u1) := u.release u.cur
          let u2 := u1.updCompact c.num fun x => 
            { x with issued := x.issued ++ [(u.cur, desc)], parties := x.parties ++ [(u.me.party, Clock.at k u.me.party)]
                     clk := Clock.join x.clk k }
          (.error (.hold (u2.upd fun t => { t with signed := some none })) : Eff)
        match st.anyCompactOf g with
        | some c => if c.st != .signing then .error (trapOf cCompactState) else join c st
        | none =>
          let (id, st1) := st.newId
          let c ← st.newCompact st.freeCompact (id + 1) g desc
          if c.num = 0 then .error .stall
          else if st.otherMember g (st.memberClus c) false then .error (trapOf cCompactState)
          else
            join c ((({ st1 with compacts := st.compacts ++ [c] } : State).dropFails (((st.gang? g).map Gang.cluss).getD [])).servedDone
              (.task st.cur st.cx.vs) st.accClk)

/-- The compact of the current task in Compute(s), where it may issue CKPT and ABORT, and STEP or DISSOLVE once
(13 R321). -/
def State.inCompute (s : State) : Except Stop Compact :=
  match s.me.gang.bind s.anyCompactOf with
  | none => .error (trapOf cCompactState)
  | some c => if c.st == .compute then .ok c else .error (trapOf cCompactState)

/-- Whether this evaluation continues a STEP or DISSOLVE that has arrived: its wait has ended, or a cause ended it. -/
def Task.arriving (t : Task) : Bool := t.arrivedAt.isSome && (!t.hm || waitKind t.wait == 1)

/-- The cone on which the current task's STEP waits (10 R281). -/
def State.stepCone (s : State) : Nat := 128 * ticOf s.myTile + 127

/-- The arrival of the current task, and with EARLY the sends of a cluster that has now arrived (13 R321, R330). -/
def State.arriveStep (s : State) (c : Compact) (final : Bool) : State :=
  let (k, s1) := s.release s.cur
  let s2 := s1.updCompact c.num fun x =>
    { x with
      clk := Clock.join x.clk k
      stepIssued := if final then x.stepIssued else x.stepIssued ++ [s.cur]
      dissolveIssued := if final then x.dissolveIssued ++ [s.cur] else x.dissolveIssued }
  match s2.compact? c.num with
  | none => s2
  | some x =>
    if x.early && s2.clusArrived x s.myClus then
      s2.updCompact c.num fun y =>
        { y with sending := y.sending ++ (x.selected x.step).filter fun i =>
            match x.plan[i]? with
            | some e => x.senderOf e == some s.myClus
            | none => false }
    else s2

/-- STEP and DISSOLVE (10 R281; 13 R321, R326, R338). -/
def State.stepWait (s : State) (f : EngF) (final : Bool) : Eff :=
  let t := s.me
  let cone := s.cone s.myClus s.stepCone
  if t.arriving then
    let step := t.arrivedAt.getD 0
    let over' := match s.me.gang.bind s.anyCompactOf with
      | none => true
      | some c => c.step != step || (waitKind t.wait == 1 && t.wake.isSome)
    if over' then
      ((s.upd fun x => { x.dropWait with arrivedAt := none }).acquire s.cur cone.done).writeDst f.d
        (if final then 0 else step + 1)
    else s.coneWait s.stepCone cone.phase false false none
  else do
    let c ← s.inCompute
    if c.stepIssued.contains s.cur || c.dissolveIssued.contains s.cur then .error (trapOf cCompactState)
    else
      stallIf s.relWait
      let s1 := (s.arriveStep c final).upd fun x => { x with arrivedAt := some c.step }
      s1.coneWait s.stepCone cone.phase false false none

def execStep (f : EngF) (s : State) := s.runEng 0xA41 f [f.d] fun st => st.stepWait f false

def execDissolve (f : EngF) (s : State) := s.runEng 0xA42 f [f.d] fun st => st.stepWait f true

/-- CKPT (10 R281, 13 R335). -/
def execCkpt (f : EngF) (s : State) := s.runEng 0xA43 f [] fun st => do
  let c ← st.inCompute
  if c.shadowA = 0 then .error (trapOf cCompactState)
  else return st.updCompact c.num fun x => { x with ckpt := true }

/-- ABORT (10 R281, 13 R336). -/
def execAbort (f : EngF) (s : State) := s.runEng 0xA44 f [] fun st => do
  let (a, s1) ← st.readSrc f.a
  let c ← st.inCompute
  let reason := a.toNat % 65536
  if 0xF000 ≤ reason then .error (trapOf cOperand) else return s1.abortCompact c.num reason (s1.gtileOf s1.cur) (withFatal 0)

end Sys2Proof.Machine
end

