-- ==== Sys2Proof/Machine/WheelIssue.lean ====
section
/-! DEFINITION. The issue of Wheel commands: their operand checks, the footprint check and the queue (09 R218, R224,
R227-R246). What a command does when it runs is in Wheel.lean. -/

namespace Sys2Proof.Machine

open Sys2Proof

/-- What a command needs at issue: the alignment of the addresses in a and b (0: not an address), whether it writes there,
whether its operands are accepted, and the rows, slots, rib bytes and knot registers that it reads or writes (09 R218). -/
structure WPlan where
  al : Nat := 0
  al2 : Nat := 0
  wr : Bool := false
  ok : Bool
  rows : List (Nat × Nat) := []
  slots : List Nat := []
  rib : List (Nat × Nat) := []
  kns : List Nat := []

/-! The operation word (09 R228). -/

/-- A field is used and within its limits, or zero. -/
def opField (used : Bool) (v lo hi : Nat) : Bool := if used then decide (lo ≤ v) && decide (v ≤ hi) else v == 0

/-- The fields of an operation word, each used or zero. -/
def opwOk (c : Word) (rib1 rib0 np bslot rows : Bool) : Bool :=
  !bit1 c 31 && opField rib1 (opRib1 c) 0 65535 && opField rib0 (opRib0 c) 0 65535 && opField np (opNp c) 1 15
    && opField bslot (opBslot c) 0 63 && opField rows (opM c) 1 1024 && opField rows (opSrow c) 0 1023

/-- The alignment of a view's base (09 R229). -/
def viewAl (b : Word) : Nat := if (layoutOf b).z then 128 else 16

/-- The 60 slots of a spline image (09 R215). -/
def imageAll (bslot : Nat) : List Nat := (List.range 60).map (bslot + ·)

/-! One plan for each instruction. -/

/-- MLDB (09 R231). -/
def planMldb (f : WhF) (_ b c : Word) : WPlan :=
  let fa := f.fmta.toNat
  let fb := f.fmtb.toNat
  let k := wheelK fa
  let n := opNp c * wheelSpp fa fb f.p24
  { al := viewAl b
    ok := opwOk c false false true true false && wheelPair fa fb && k * opNp c % wheelG fa fb == 0
      && decide (opBslot c + n ≤ 64) && layoutOk (layoutOf b) (fmtWidth fb) (k * opNp c) 256
    slots := (List.range n).map (opBslot c + ·) }

/-- MLDC (09 R232). -/
def planMldc (f : WhF) (_ _ c : Word) : WPlan :=
  let i0 := Nat.bits f.imm.toNat 4 0
  let ni := Nat.bits f.imm.toNat 12 8
  { al := 1
    ok := opwOk c false false false true false && decide (opBslot c ≤ 4) && decide (1 ≤ ni) && decide (i0 + ni ≤ 24)
    slots := imageSlots (opBslot c) (10240 * i0) (10240 * ni) }

/-- MKNOT (09 R233). -/
def planMknot (f : WhF) (a b _ : Word) : WPlan := { ok := knotOk (b ++ a), kns := [f.x.toNat % 32] }

/-- MLDS (09 R234). -/
def planMlds (f : WhF) (_ _ c : Word) : WPlan :=
  let n := f.imm.toNat % 65536 + 1
  { al := 1
    ok := opwOk c false true false false false && decide (opRib0 c + n ≤ 65536)
    rib := [(opRib0 c, n)] }

/-- Whether the pair of MMA and MMAC takes A row scales, and B column scales (09 R230). -/
def scaOk (fa : Nat) : Bool := [3, 4, 5, 6, 7].contains fa
def scbOk (fa fb : Nat) : Bool := scaOk fa || (fa == 2 && fb == 9)

/-- MMA and MMAC (09 R236). SCA or SCB for a pair that does not take those scales is a Wheel-operand trap (assumption 101). -/
def planMma (f : WhF) (_ b c : Word) : WPlan :=
  let fa := f.fmta.toNat
  let fb := f.fmtb.toNat
  let kn := wheelK fa * opNp c
  let g := wheelG fa fb
  let ng := kn / g
  let n := opNp c * wheelSpp fa fb f.p24
  let sca := f.x.getLsbD 1
  let scb := f.x.getLsbD 0
  { al := viewAl b
    ok := opwOk c scb sca true true true && wheelPair fa fb && (!sca || scaOk fa) && (!scb || scbOk fa fb)
      && kn % g == 0 && decide (opSrow c + opM c ≤ 1024) && decide (opBslot c + n ≤ 64)
      && (!sca || decide (opRib0 c + opM c * ng ≤ 65536)) && (!scb || decide (opRib1 c + 256 * ng ≤ 65536))
      && layoutOk (layoutOf b) (fmtWidth fa) (opM c) kn
    rows := [(opSrow c, opM c)]
    slots := (List.range n).map (opBslot c + ·)
    rib := (if sca then [(opRib0 c, opM c * ng)] else []) ++ if scb then [(opRib1 c, 256 * ng)] else [] }

/-- MSPL and MSDX (09 R239, R241). -/
def planSpline (f : WhF) (al2 : Nat) (c : Word) : WPlan :=
  let ins := maskInputs f.imm.toNat
  { al := 16, al2 := al2
    ok := opwOk c false false false true true && decide (opBslot c ≤ 4) && !ins.isEmpty
      && decide (opSrow c + opM c ≤ 1024)
    rows := [(opSrow c, opM c)], slots := imageAll (opBslot c), kns := ins }

/-- MSGRAD (09 R240). -/
def planMsgrad (f : WhF) (c : Word) : WPlan :=
  let ins := maskInputs f.imm.toNat
  { al := 16, al2 := 16
    ok := opwOk c false false false true true && decide (opBslot c ≤ 4) && !ins.isEmpty
      && decide (opSrow c + 20 * (ins.getLastD 0 + 1) ≤ 1024)
    rows := ins.map fun i => (opSrow c + 20 * i, 20)
    slots := imageAll (opBslot c), kns := ins }

/-- MREFINE (09 R242). -/
def planMrefine (f : WhF) (c : Word) : WPlan :=
  let i := f.x.toNat % 32
  { ok := opwOk c false false false true false && decide (opBslot c ≤ 4)
    slots := imageSlots (opBslot c) (10240 * i) 10240, kns := [i] }

/-- MZERO (09 R235). -/
def planZeroSag (c : Word) : WPlan :=
  { ok := opwOk c false false false false true && decide (opSrow c + opM c ≤ 1024), rows := [(opSrow c, opM c)] }

def planZeroBat (f : WhF) (c : Word) : WPlan :=
  let n := f.imm.toNat % 128
  { ok := opwOk c false false false true false && decide (1 ≤ n) && decide (n ≤ 64) && decide (opBslot c + n ≤ 64)
    slots := (List.range n).map (opBslot c + ·) }

def planZeroRib (f : WhF) (c : Word) : WPlan :=
  let n := f.imm.toNat % 65536 + 1
  { ok := opwOk c false true false false false && decide (opRib0 c + n ≤ 65536), rib := [(opRib0 c, n)] }

/-- MRD and MWR (09 R243, R244). -/
def planMrd (f : WhF) (mul wr : Bool) (b c : Word) : WPlan :=
  let c0 := mrdCol0 f
  let nc := mrdNcol f
  { al := viewAl b, wr := wr
    ok := opwOk c false mul false false true && decide (1 ≤ nc) && decide (c0 + nc ≤ 256)
      && decide (opSrow c + opM c ≤ 1024) && (!mul || decide (opRib0 c + 4 * (c0 + nc) ≤ 65536))
      && layoutOk (layoutOf b) (fmtWidth f.fmta.toNat) (opM c) nc
    rows := [(opSrow c, opM c)]
    rib := if mul then [(opRib0 c + 4 * c0, 4 * nc)] else [] }

/-! The issue. -/

/-- Whether a range lies in a FIRST and COUNT register. -/
def fpHolds (r : Word) (lo n : Nat) : Bool := n == 0 || (decide (fpFirst r ≤ lo) && decide (lo + n ≤ fpFirst r + fpCount r))

/-- Whether a task's footprint holds what a command needs (09 R218 step 4, R224). -/
def Task.holdsPlan (t : Task) (p : WPlan) : Bool :=
  p.rows.all (fun r => fpHolds t.wfsag r.1 r.2)
    && p.slots.all (fun i => bit1 t.wfbat i)
    && p.rib.all (fun r => fpHolds t.wfrib (r.1 / 64) ((r.1 + r.2 - 1) / 64 - r.1 / 64 + 1))
    && p.kns.all fun i => bit1 t.wfkn i

/-- Steps 1 and 2 of 07 R161 for an address operand. -/
def addrOk (va : Word) (al : Nat) (wr : Bool) : Except Stop Unit :=
  if al = 0 then .ok ()
  else if highBits va then .error (trapOf cAddress va wr)
  else if va.toNat % al != 0 then .error (trapOf cAlign va wr)
  else .ok ()

/-- Whether MMAC and WFSAG.COOP are legal for the current task (09 R237). -/
def State.coopLegal (s : State) : Bool :=
  match s.me.gang.bind s.gang? with
  | none => false
  | some g => g.tmask == 0xFF && (routerClus s.myClus).all fun k => s.present.getLsbD k && g.tiles.any fun t => clusOf t == k

/-- Whether an earlier command in another queue of this task has yet to make an access that meets these (07 R162). The commands
of a queue that a fault of this task has stopped run after its handler (09 R223). -/
def State.otherQueueMeets (s : State) (q : Nat) (l : List Span) : Bool :=
  let w := s.wheel s.myClus
  w.queues.any fun p => p.1 != q && !(w.stopped.contains p.1 && s.me.wstop.contains p.1) &&
    p.2.any fun c => c.task == s.cur && c.begun.isEmpty && c.spans.any fun x => l.any (s.spansMeet s.myDom x)

/-- A command enters queue `q` (09 R218). -/
def State.wheelEnter (s : State) (q : Nat) (i : Instr) (a b c : Word) : Eff :=
  let cmd0 : WCmd :=
    { id := s.nextId, task := s.cur, pc := s.cx.pc, ins := i, a := a, b := b, c := c, clk := s.me.clk, asked := none,
      granted := false, damp := 0, parts := [], begun := [], flags := 0, clus := s.myClus, dom := s.myDom, tile := s.myTile
      party := s.me.party }
  let cmd := { cmd0 with parts := cmd0.cluss }
  if cmd.parts.any fun k => decide (wheelDepth ≤ ((s.wheel k).queue q).length) then .error .stall
  else if s.otherQueueMeets q cmd.spans || cmd.spans.any s.vecWait then .error .stall
  else .ok (({ s with nextId := s.nextId + 1 } : State).wheelPush q cmd)

/-- The issue of a Wheel command: operands, checks in order, and the queue (09 R218). -/
def State.wheelIssue (s : State) (f : WhF) (i : Instr) (q : Nat) (plan : Word → Word → Word → WPlan) : Eff := do
  let (a, s1) ← s.readSrc f.a
  let (b, s2) ← s1.readSrc f.b
  let (c, s3) ← s2.readSrc f.c
  let p := plan a b c
  addrOk a p.al p.wr
  addrOk b p.al2 p.wr
  if !p.ok || (q == 8 && !(s.coopLegal && fpCoop s.me.wfsag)) || !s.me.holdsPlan p then
    .error (trapOf cWheelOperand)
  else s3.wheelEnter q i a b c

/-- A command for the tile's own queue. -/
def State.runOwn (s : State) (opc : Nat) (f : WhF) (i : Instr) (plan : Word → Word → Word → WPlan) :
    Host.Outcome State Fault Refusal :=
  s.runWheel opc f.hd fun st => st.wheelIssue f i (ticOf st.myTile) plan

def execMldb (f : WhF) (s : State) := s.runOwn 0x800 f (.mldb f) (planMldb f)
def execMldc (f : WhF) (s : State) := s.runOwn 0x801 f (.mldc f) (planMldc f)
def execMknot (f : WhF) (s : State) := s.runOwn 0x802 f (.mknot f) (planMknot f)
def execMlds (f : WhF) (s : State) := s.runOwn 0x803 f (.mlds f) (planMlds f)
def execMma (f : WhF) (s : State) := s.runOwn 0x840 f (.mma f) (planMma f)
/-- MMAC enters queue 8 of the four clusters of the router (09 R237). -/
def execMmac (f : WhF) (s : State) := s.runWheel 0x841 f.hd fun st => st.wheelIssue f (.mmac f) 8 (planMma f)
def execMspl (f : WhF) (s : State) := s.runOwn 0x842 f (.mspl f) fun _ _ c => planSpline f 0 c
def execMsdx (f : WhF) (s : State) := s.runOwn 0x880 f (.msdx f) fun _ _ c => planSpline f 16 c
def execMsgrad (f : WhF) (s : State) := s.runOwn 0x881 f (.msgrad f) fun _ _ c => planMsgrad f c
def execMrefine (f : WhF) (s : State) := s.runOwn 0x882 f (.mrefine f) fun _ _ c => planMrefine f c
def execMzeroSag (f : WhF) (s : State) := s.runOwn 0x883 f (.mzeroSag f) fun _ _ c => planZeroSag c
def execMzeroBat (f : WhF) (s : State) := s.runOwn 0x883 f (.mzeroBat f) fun _ _ c => planZeroBat f c
def execMzeroRib (f : WhF) (s : State) := s.runOwn 0x883 f (.mzeroRib f) fun _ _ c => planZeroRib f c
def execMrd (f : WhF) (s : State) := s.runOwn 0x8C0 f (.mrd f) fun _ b c => planMrd f (f.x.getLsbD 0) true b c
def execMwr (f : WhF) (s : State) := s.runOwn 0x8C1 f (.mwr f) fun _ b c => planMrd f false false b c
/-- MSTAT (09 R245). -/
def execMstat (f : WhF) (s : State) := s.runOwn 0x8C3 f (.mstat f) fun _ _ _ => { al := 64, wr := true, ok := true }

/-- The commands of a task that have not completed, in its tile's queue and in queue 8 (09 R246). -/
def State.wheelBusy (s : State) (t : Nat) : Bool :=
  (routerClus (clusOf (s.task t).tile)).any fun k => (s.wheel k).queues.any fun q => q.2.any fun c => c.task == t

/-- MDRAIN (09 R246): a stall, and no memory is ordered by itself. What a boundary that served a read of the commands made happen
before it happens before what follows (09 R222, 11 R309). -/
def execMdrain (f : WhF) (s : State) := s.runI 0x8C2 f.hd [] fun st =>
  if st.wheelBusy st.cur then .error .stall
  else if st.me.wclk.isEmpty then .ok st
  else .ok ((st.acquire st.cur st.me.wclk).upd fun t => { t with wclk := [] })

/-! Footprint registers (09 R224, R225). -/

/-- The writable bits of WFSAG and WFRIB, of WFBAT and of WFKN. -/
def fpMask (coop : Bool) : Word := 0x07FF_03FF#64 ||| (if coop then 0x8000_0000#64 else 0)

/-- Gives a footprint's state to domain `d`: what another domain held last is zeroed (09 R224). -/
def Wheel.take (w : Wheel) (d : Nat) (sag bat rib kn : Word) : Wheel :=
  let other := fun (m : Map Nat) i => m.getD i d != d
  let w1 := (fpRows sag).foldl (fun (x : Wheel) r =>
    let y := if other x.rowDom r then x.setRow r 0 (List.replicate 256 0) else x
    { y with rowDom := y.rowDom.set r d }) w
  let w2 := (fpBits bat 64).foldl (fun (x : Wheel) i =>
    let y : Wheel := if other x.slotDom i then
        ({ x with bat := x.bat.write (4096 * i) (List.replicate 4096 0) } : Wheel).setTag i .empty else x
    { y with slotDom := y.slotDom.set i d }) w1
  let w3 := ((List.range (fpCount rib)).map (fpFirst rib + ·)).foldl (fun (x : Wheel) u =>
    let y : Wheel := if other x.unitDom u then { x with rib := x.rib.write (64 * u) (List.replicate 64 0) } else x
    { y with unitDom := y.unitDom.set u d }) w2
  let gone := (fpRows sag).filter (other w.rowDom) |>.flatMap fun r => sagRange r 1 0 256
  let w4 := w3.unpoison (gone ++ ((fpBits bat 64).filter (other w.slotDom)).map (fun i => (0, 4096 * i, 4096))
    ++ ((fpUnits rib).filter (other w.unitDom)).map fun u => (1, 64 * u, 64))
  (fpBits kn 24).foldl (fun (x : Wheel) i =>
    let y := if other x.knDom i then (x.setKnot i 0).showKnot i else x
    { y with knDom := y.knDom.set i d }) w4

/-- An SWR of footprint register `reg` (0x200 to 0x203) by the current task (09 R224). -/
def State.footprintWrite (s : State) (reg : Nat) (v : Word) : Eff :=
  let t := s.me
  let t1 : Task :=
    if reg = 0x200 then { t with wfsag := v &&& fpMask true }
    else if reg = 0x201 then { t with wfbat := v }
    else if reg = 0x202 then { t with wfrib := v &&& fpMask false }
    else { t with wfkn := v &&& 0xFF_FFFF#64 }
  if s.wheelBusy s.cur then .error .stall
  else if 1024 < fpFirst t1.wfsag + fpCount t1.wfsag || 1024 < fpFirst t1.wfrib + fpCount t1.wfrib
      || (fpCoop t1.wfsag && !s.coopLegal)
      || Word.bits t1.saveext 11 0 * 4096 < footprintBytes t1.wfsag t1.wfbat t1.wfrib t1.wfkn then
    .error (trapOf cWheelOperand)
  else
    let own := s.myClus
    let s1 := s.setWheel own ((s.wheel own).take t.dom t1.wfsag t1.wfbat t1.wfrib t1.wfkn)
    let s2 := (t1.sagClus.filter (· != own)).foldl (fun st k => st.setWheel k ((st.wheel k).take t.dom t1.wfsag 0 0 0)) s1
    .ok (s2.upd fun _ => t1)

end Sys2Proof.Machine
end

