-- ==== Sys2Proof/Machine/SysIssue.lean ====
section
/-! DEFINITION. System instructions (10 R282-R286): the system registers (01 R24-R26, 09 R225, 20 R385, 21 R396, R397),
ERET, TLBI, PREEMPT, RESUME, HALTG and SALVAGE. -/

namespace Sys2Proof.Machine

open Sys2Proof

/-! Reading (01 R24). -/

/-- DOMSEL of the current task's context (21 R396). -/
def State.myDomsel (s : State) : Nat := (s.tile s.myTile).domsel.toList.getD s.me.ctx 0

/-- The domain whose copies a task's accesses reach (21 R396). -/
def State.regDom (s : State) : Nat := if s.myDom = 0 then s.myDomsel else s.myDom

/-- Entry `i` of a register file. -/
def vecAt {n : Nat} (v : Vector Word n) (i : Nat) : Word := v.toList.getD i 0

/-- SRD of register `n` by the current task. -/
def State.readSys (s : State) (n : Nat) : Option Word :=
  let t := s.me
  let num : Nat → Option Word := fun x => some (BitVec.ofNat 64 x)
  let dom := s.dom s.regDom
  let clus := s.clus s.myClus
  let tile := s.tile t.tile
  if n = 0 then some s.cycle
  else if n = 1 then num t.tile
  else if n = 2 then num s.myClus
  else if n = 3 then num s.myDie
  else if n = 4 then num s.devnum.toNat
  else if n = 5 then num (s.devnum.toNat * 4096 + t.tile)
  else if n = 6 then num (s.flatIdx s.myClus)
  else if 8 ≤ n && n < 0x10 then some (s.present.extractLsb' (64 * (n - 8)) 64)
  else if n = 0x10 then some t.status
  else if n = 0x11 then some t.ipc
  else if n = 0x12 then some t.vpc
  else if n = 0x13 then some t.faultaddr
  else if n = 0x14 then some t.faultinfo
  else if n = 0x15 then num t.dom
  else if n = 0x16 then some s.myHandle
  else if n = 0x17 then some t.fpflags
  else if n = 0x18 then num clus.throttle
  else if n = 0x19 then some clus.wheel.wt
  else if 0x20 ≤ n && n < 0x30 then some (vecAt dom.scope (n - 0x20))
  else if n = 0x100 then some dom.tvbase
  else if n = 0x101 then some dom.ptroot
  else if n = 0x102 then num s.myDomsel
  else if 0x108 ≤ n && n < 0x110 then some (vecAt dom.hchain (n - 0x108))
  else if n = 0x110 then some t.cfdesc
  else if n = 0x111 then some t.cfdone
  else if n = 0x112 then some (setBit t.cfstat 31 false)
  else if n = 0x118 then some tile.msgout
  else if n = 0x119 then some tile.msgin
  else if 0x120 ≤ n && n < 0x124 then some (vecAt dom.bkpt (n - 0x120))
  else if n = 0x128 then some tile.btctl
  else if n = 0x129 then some tile.btpos
  else if n = 0x200 then some t.wfsag
  else if n = 0x201 then some t.wfbat
  else if n = 0x202 then some t.wfrib
  else if n = 0x203 then some t.wfkn
  else if n = 0x208 then some (s.wqstat s.cur)
  else if n = 0x209 then some t.wdone
  else if n = 0x20A then some t.wdamp
  else if n = 0x20B then some t.werr
  else if 0x210 ≤ n && n < 0x228 then some ((clus.wheel.knSeen.getD (n - 0x210) 0).extractLsb' 0 64)
  else if 0x230 ≤ n && n < 0x248 then some ((clus.wheel.knSeen.getD (n - 0x230) 0).extractLsb' 64 64)
  else if n = 0x300 then some s.fabthr
  else if n = 0x301 then num clus.deflcnt
  else if n = 0x302 then some s.cohctl
  else if n = 0x303 then num (s.delBound % 2 ^ 32 * 2 ^ 32 + s.delDrop % 2 ^ 32)
  else if n = 0x310 then some (s.slfold.setWidth 64)
  else if n = 0x311 then some (s.foldstat.setWidth 64)
  else if 0x320 ≤ n && n < 0x328 then some (vecAt s.uetcfg (n - 0x320))
  else if n = 0x328 then some s.uetrto
  else if n = 0x329 then some s.uetretry
  else if n = 0x32A then some s.uetmap
  else none

/-- A reserved SYSN (01 R24). -/
def State.badSys (s : State) : Stop := .trap { cause := 1, detail := 2, addr := s.cx.pc }

/-- SRD (10 R283); FPFLAGS waits for the V-class instructions before it (05 R123). -/
def execSrd (f : SysF) (s : State) := s.runI 0xF00 f.hd [f.d] fun st => do
  let n := f.sysn.toNat
  stallIf (n == 0x17 && !st.me.vq.isEmpty)
  match st.readSys n with
  | some v => st.writeDst f.d v
  | none => .error st.badSys

/-! Writing. -/

/-- Who may write a register (01 R24). -/
inductive Priv where
  | task
  | handler
  | firing
  | wheelwt
  deriving DecidableEq, Repr

def sysPriv (n : Nat) : Priv :=
  if n = 0x10 || n = 0x17 || (0x200 ≤ n && n < 0x204) then .task
  else if n = 0x11 || n = 0x12 || n = 0x112 || n = 0x208 then .handler
  else if n = 0x19 then .wheelwt
  else .firing

/-- A handler register is written by code in handler mode, of domain 0 too; the firing program is any code of domain 0. -/
def State.mayWrite (s : State) (p : Priv) (uni : Bool) : Bool :=
  match p with
  | .task => true
  | .handler => s.me.hm
  | .firing => s.myDom == 0
  | .wheelwt => s.myDom == 0 || uni

/-- STATUS (21 R397). -/
def State.statusWrite (s : State) (v : Word) : State :=
  s.upd fun t =>
    let x := setBit t.status stTRACE (bit1 v stTRACE)
    { t with status := if t.hm then setBit x stVDROP (bit1 v stVDROP) else x }

/-- FPFLAGS (05 R122). -/
def State.fpflagsWrite (s : State) (v : Word) : State := s.upd fun t => { t with fpflags := v &&& 0x1FF#64 }

/-- WHEELWT (09 R225). -/
def State.wheelwtWrite (s : State) (v : Word) : State :=
  s.updClus s.myClus fun c => { c with wheel := { c.wheel with wt := v &&& 0xF_FFFF_FFFF#64 } }

/-- Causes that say that an address does not translate to readable device memory (01 R25). -/
def notReadable (cause : Nat) : Bool := [cAddress, cAlign, cPage, cPerm, cPhys, cTable].contains cause

/-- The scope descriptor at a pointer, through a domain's translation (01 R25): none where the pointer or the descriptor is bad.
The read can wait, and take a machine check, like any other. -/
def State.scopeDesc (s : State) (dom : Nat) (ptr : Word) : Except Chk (Option (BitVec 512 × BitVec 512)) :=
  let w : Who := { dom := dom, tile := s.myTile, party := s.me.party, clk := s.me.clk, member := none, rd := some (.task s.cur false) }
  match s.check w { va := ptr, n := 128, al := 128, wr := false, data := false, plain := true } with
  | .ok pa _ =>
    let devs := (List.range 32).map fun i => s.mem.num (pa + 64 + 2 * i) 2
    .ok (if devs.any fun d => decide (1023 < d) && d != 0xFFFF then none
         else some (BitVec.ofNat 512 (s.mem.num pa 64), BitVec.ofNat 512 (s.mem.num (pa + 64) 64)))
  | .trap t => if notReadable t.cause then .ok none else .error (.trap t)
  | c => .error c

/-- SCOPEn of a domain (01 R25). -/
def State.scopeSet (s : State) (dom n : Nat) (v : Word) : Except Chk (Option State) :=
  let d := s.dom dom
  (s.scopeDesc dom v).map fun r => r.map fun c =>
    s.setDom dom { d with scope := d.scope.setIfInBounds n v, scopeCopy := d.scopeCopy.set n c }

def State.scopeWrite (s : State) (n : Nat) (v : Word) : Eff :=
  match s.scopeSet s.regDom n v with
  | .ok (some s1) => .ok s1
  | .ok none => .error (trapOf cScope v)
  | .error c => .error c.stop

/-- TVBASE and PTROOT keep the bits of an aligned address (21 R396). -/
def State.tvbaseWrite (s : State) (dom : Nat) (v : Word) : State :=
  s.setDom dom { s.dom dom with tvbase := v &&& 0x7F_FFFF_FFFF_FE00#64 }
def State.ptrootWrite (s : State) (dom : Nat) (v : Word) : State :=
  s.setDom dom { s.dom dom with ptroot := v &&& 0xF_FFFF_FFFF_0000#64, ptSet := true }
def State.hchainWrite (s : State) (dom i : Nat) (v : Word) : State :=
  s.setDom dom { s.dom dom with hchain := (s.dom dom).hchain.setIfInBounds i v }
def State.bkptWrite (s : State) (dom i : Nat) (v : Word) : State :=
  s.setDom dom { s.dom dom with bkpt := (s.dom dom).bkpt.setIfInBounds i (v &&& 0x807F_FFFF_FFFF_FFFF#64) }
def State.domselWrite (s : State) (v : Word) : State :=
  let x := s.tile s.myTile
  s.setTile s.myTile { x with domsel := x.domsel.setIfInBounds s.me.ctx (v.toNat % 256) }
def State.ipcWrite (s : State) (v : Word) : State := s.upd fun t => { t with ipc := v }
def State.vpcWrite (s : State) (v : Word) : State := s.upd fun t => { t with vpc := v }

/-- BTCTL (21 R396): an LSZ above 12 stores 12. -/
def State.btctlWrite (s : State) (v : Word) : State :=
  let x := setBits (v &&& 0xF_FFFF_FFFF_F01F#64) 4 1 (btLsz v)
  s.setTile s.myTile { s.tile s.myTile with btctl := x }

/-- CFSTAT (21 R396): ABANDON, for the ERET to come (R413). -/
def State.cfstatWrite (s : State) (v : Word) : State :=
  if bit1 v 31 then s.upd fun t => { t with cfstat := setBit t.cfstat 31 true } else s

/-- WQSTAT (09 R223, R225). -/
def State.wqstatWrite (s : State) (v : Word) : State := if bit1 v 31 then s.wheelDiscard s.cur else s

def State.fabthrWrite (s : State) (v : Word) : State := { s with fabthr := v &&& 0xFF_FFFF_FFFF_FFFF#64 }
def State.cohctlWrite (s : State) (v : Word) : State := { s with cohctl := v &&& 1#64 }
def State.uetcfgWrite (s : State) (p : Nat) (v : Word) : State :=
  { s with uetcfg := s.uetcfg.setIfInBounds p ((vecAt s.uetcfg p &&& 2#64) ||| (v &&& 1#64)) }
def State.uetrtoWrite (s : State) (v : Word) : State := { s with uetrto := v &&& 0xFFFF_FFFF#64 }
def State.uetretryWrite (s : State) (v : Word) : State :=
  { s with uetretry := BitVec.ofNat 64 (Nat.max 1 (v.toNat % 16)) }

/-- The part of memory under `n` bytes of domain 0's space from `va`, moved to address 0. -/
def State.tableImage (s : State) (va n : Nat) : Except Chk Mem :=
  (List.range (n / 128)).foldlM (fun (m : Mem) i =>
    match s.check { dom := 0, tile := 0, party := 0, clk := [], member := none }
        { va := BitVec.ofNat 64 (va + 128 * i), n := 128, al := 1, wr := false, plain := true } with
    | .ok pa _ => .ok (m ++ (s.mem.slice pa 128).map fun c => (c.1 - pa + 128 * i, c.2))
    | k => .error k) []

/-- UETMAP (20 R385, R393): the table is read now. -/
def State.uetmapWrite (s : State) (v : Word) : Eff :=
  let p := v &&& 0x7F_FFFF_FFFF_FF80#64
  match s.tableImage p.toNat 131072 with
  | .ok m => .ok { s with uetmap := p, uetTable := m }
  | .error k => .error k.stop

/-- The value that a write of SLFOLD asks for: a code of 3 keeps the die's bits (20 R385). -/
def foldGoal (old : BitVec 16) (v : Word) : BitVec 16 :=
  BitVec.ofNat 16 ((List.range 8).foldl (fun n d =>
    let c := Word.bits v (2 * d + 1) (2 * d)
    n + (if c = 3 then foldOf old d else c) * 4 ^ d) 0)

/-- The dies whose fold changes. -/
def foldDies (old new : BitVec 16) : BitVec 8 :=
  BitVec.ofNat 8 ((List.range 8).foldl (fun n d => n + if foldOf old d = foldOf new d then 0 else 2 ^ d) 0)

/-- A write of SLFOLD starts the sequence of 20 R388; while one runs, another write waits. -/
def State.slfoldWrite (s : State) (v : Word) : State :=
  if s.foldstat != 0 then s
  else
    let new := foldGoal s.slfold v
    ({ s with foldTo := new, foldstat := foldDies s.slfold new } : State).excuse

/-- What an SWR of SLFOLD leaves in `sysReq` while its sequence runs. -/
def foldReq (v : Word) : Word := BitVec.ofNat 64 (2 ^ 63 + v.toNat % 65536)

/-- SWR of SLFOLD starts its sequence once no other runs, and completes when it has ended (20 R388). -/
def State.slfoldSwr (s0 s : State) (v : Word) : Eff :=
  if s.me.sysReq == some (foldReq v) then
    if s.foldstat = 0 then .ok (s.upd fun t => { t with sysReq := none }) else .error (.hold s0)
  else if s.foldstat != 0 then .error (.hold s0)
  else if foldGoal s.slfold v = s.slfold then .ok s
  else .error (.hold ((s0.slfoldWrite v).upd fun t => { t with sysReq := some (foldReq v) }))

/-- SWR of register `n` with value `v`; `s0` is the state before the operand is read. -/
def State.writeSys (s0 s : State) (n : Nat) (v : Word) : Eff :=
  if n = 0x10 then .ok (s.statusWrite v)
  else if n = 0x11 then .ok (s.ipcWrite v)
  else if n = 0x12 then .ok (s.vpcWrite v)
  else if n = 0x17 then (if s.me.vq.isEmpty then .ok (s.fpflagsWrite v) else .error .stall)
  else if n = 0x19 then .ok (s.wheelwtWrite v)
  else if 0x20 ≤ n && n < 0x30 then s.scopeWrite (n - 0x20) v
  else if n = 0x100 then .ok (s.tvbaseWrite s.regDom v)
  else if n = 0x101 then .ok (s.ptrootWrite s.regDom v)
  else if n = 0x102 then .ok (s.domselWrite v)
  else if 0x108 ≤ n && n < 0x110 then .ok (s.hchainWrite s.regDom (n - 0x108) v)
  else if n = 0x112 then .ok (s.cfstatWrite v)
  else if 0x120 ≤ n && n < 0x124 then .ok (s.bkptWrite s.regDom (n - 0x120) v)
  else if n = 0x128 then .ok (s.btctlWrite v)
  else if 0x200 ≤ n && n < 0x204 then s.footprintWrite n v
  else if n = 0x208 then .ok (s.wqstatWrite v)
  else if n = 0x300 then .ok (s.fabthrWrite v)
  else if n = 0x302 then .ok (s.cohctlWrite v)
  else if n = 0x310 then s0.slfoldSwr s v
  else if 0x320 ≤ n && n < 0x328 then .ok (s.uetcfgWrite (n - 0x320) v)
  else if n = 0x328 then .ok (s.uetrtoWrite v)
  else if n = 0x329 then .ok (s.uetretryWrite v)
  else if n = 0x32A then s.uetmapWrite v
  else .error s.badSys

/-- SWR (10 R283). -/
def execSwr (f : SysF) (s : State) := s.runI 0xF01 f.hd [] fun st => do
  let n := f.sysn.toNat
  let (v, s1) ← st.readSrc f.a
  if !sysnExists n || sysnReadOnly n then .error st.badSys
  else if !st.mayWrite (sysPriv n) f.hd.u then .error (trapOf cPrivilege)
  else st.writeSys s1 n v

def execEret (f : SysF) (s : State) := s.runI 0xF02 f.hd [] fun st => st.eret

/-! TLBI (10 R285, 21 R411). -/

/-- The bytes that a cached translation's page, or a cached table entry, covers. -/
def TlbEnt.span (e : TlbEnt) : Nat × Nat :=
  let b := levelBits e.level
  let n := if e.level < 3 then 2 ^ b else if pteSize e.entry = 2 then 2 ^ 30 else if pteSize e.entry = 1 then 2 ^ 21 else 65536
  (alignDown (e.page * 2 ^ b) n, n)

/-- Whether an access, a walk or a command of a task of the domains that `covers` names still relies on a translation: an MCAS or
an IOLD under way, a group pushed to a stream, a Wheel command whose effects are to come (10 R285). A copy's accesses are each
made in one step. -/
def State.translating (s : State) (covers : Nat → Bool) : Bool :=
  (s.tasks.any fun p => covers p.2.dom && (p.2.mcas.isSome || p.2.io.isSome || p.2.gens.toList.any fun g => !g.out.isEmpty))
    || !s.strays.isEmpty
    || s.cluss.any fun k => k.2.wheel.queues.any fun q => q.2.any fun c => c.snap.isSome && covers (s.task c.task).dom

/-- Drops cached translations, after every earlier store of the task and every access that relies on one (10 R285). -/
def State.tlbi (s : State) (covers : Nat → Bool) (dead : TlbEnt → Bool) : Eff :=
  if s.relWait || s.translating covers then .error .stall else .ok { s with tlb := s.tlb.filter fun e => !dead e }

/-- Code of domain 0 (10 R282). -/
def State.firing (s : State) : Except Stop Unit := if s.myDom = 0 then .ok () else .error (trapOf cPrivilege)

def execTlbiDom (f : SysF) (s : State) := s.runI 0xF03 f.hd [] fun st => do
  st.firing
  let (c, s1) ← st.readSrc f.c
  s1.tlbi (· == c.toNat) fun e => e.dom == c.toNat

def execTlbiPage (f : SysF) (s : State) := s.runI 0xF03 f.hd [] fun st => do
  st.firing
  let (a, s1) ← st.readSrc f.a
  let (c, s2) ← s1.readSrc f.c
  s2.tlbi (· == c.toNat) fun e => e.dom == c.toNat && decide (e.span.1 ≤ a.toNat) && decide (a.toNat < e.span.1 + e.span.2)

def execTlbiRange (f : SysF) (s : State) := s.runI 0xF03 f.hd [] fun st => do
  st.firing
  let (a, s1) ← st.readSrc f.a
  let (b, s2) ← s1.readSrc f.b
  let (c, s3) ← s2.readSrc f.c
  s3.tlbi (· == c.toNat) fun e => e.dom == c.toNat && decide (a.toNat < b.toNat)
    && decide (e.span.1 < b.toNat) && decide (a.toNat < e.span.1 + e.span.2)

def execTlbiAll (f : SysF) (s : State) := s.runI 0xF03 f.hd [] fun st => do
  st.firing
  st.tlbi (fun _ => true) fun _ => true

/-! PREEMPT, RESUME and HALTG (10 R286; 21 R404, R407, R408; 13 R321, R339, R340). -/

/-- The task that a handle names; none when it is stale. -/
def State.named (s : State) (h : Word) : Option Nat :=
  match s.task? (handleFrame h) with
  | some x => if handleOf x.gen (handleFrame h) = h then some (handleFrame h) else none
  | none => none

/-- The task and, if it belongs to a gang, the gang's other members. -/
def State.fellows (s : State) (t : Nat) : List Nat :=
  match (s.task t).gang with
  | some g => s.gangTasks g
  | none => [t]

/-- The request is over: d receives its status. -/
def State.sysDone (s : State) (f : SysF) (r : Nat) : Eff :=
  (s.upd fun t => { t with sysReq := none }).writeDst f.d (BitVec.ofNat 64 r)

/-- The bundle stalls while the request is under way. -/
def State.sysHold (s : State) (h : Word) : Eff := .error (.hold (s.upd fun t => { t with sysReq := some h }))

/-- PREEMPT of the tasks `ts`; the issuing task stops last, at its next bundle. -/
def State.stopAll (s : State) (ts : List Nat) : State :=
  let live := ts.filter fun t => (s.task t).live
  (live.filter (· != s.cur) ++ live.filter (· == s.cur)).foldl (fun st t => st.stopTask t 0) s

/-- Whether the task's gang is still to stop after its compact has ended (13 R321). -/
def State.stopping (s : State) (t : Nat) : Bool := (((s.task t).gang.bind s.gang?).map (·.stopping)).getD false

/-- PREEMPT of task `t` and its gang: it waits for bundles that are under way, and a begun MCAS (07 R182, 21 R407). It finds nothing
to stop where every member is stopped already. -/
def State.preemptTasks (s s1 : State) (f : SysF) (h : Word) (t : Nat) : Eff :=
  let asked := s.me.sysReq == some h
  if !asked && (s.fellows t).all (fun j => !(s.task j).live) then s1.sysDone f 1
  else if (s.fellows t).any (fun j => s.stopWaits j) || s.stopping t then s.sysHold h
  else do
    let s2 ← s1.sysDone f 0
    return s2.stopAll (s.fellows t)

/-- PREEMPT.compact (13 R321, R339). In Signing it waits; otherwise it asks for the stop once, and is complete when every device
has finished, or for a member that stops itself when it has asked. -/
def State.preemptCompact (s s1 : State) (f : SysF) (h : Word) (c : Compact) : Eff :=
  let asked := s.me.sysReq == some h
  if c.allStopped then s1.sysDone f (if asked then 0 else 1)
  else if asked then s.sysHold h
  else if c.st == .signing || c.st == .aborting then .error .stall
  else if (s.members c).contains s.cur then do
    let s2 ← s1.sysDone f 0
    return s2.askStop c.num
  else (s.askStop c.num).sysHold h

/-- PREEMPT; `compact` for S = 2. -/
def State.preempt (s : State) (f : SysF) (compact : Bool) : Eff := do
  s.firing
  let (h, s1) ← s.readSrc f.a
  match s.named h with
  | none => s1.sysDone f 2
  | some t =>
    match (if compact then (s.task t).gang.bind s.anyCompactOf else none) with
    | some c => s.preemptCompact s1 f h c
    | none => s.preemptTasks s1 f h t

def execPreemptTask (f : SysF) (s : State) := s.runI 0xF40 f.hd [f.d] fun st => st.preempt f false
def execPreemptGang (f : SysF) (s : State) := s.runI 0xF40 f.hd [f.d] fun st => st.preempt f false
def execPreemptCompact (f : SysF) (s : State) := s.runI 0xF40 f.hd [f.d] fun st => st.preempt f true

/-- RESUME of the tasks `ts`, complete when every one is ready. -/
def State.resumeAll (s s1 : State) (f : SysF) (h : Word) (ts : List Nat) : Eff :=
  let asked := s.me.sysReq == some h
  if ts.all fun t => (s.task t).live then s1.sysDone f (if asked then 0 else 1)
  else if ts.all fun t => ((s1.askResume ts).task t).live then (s1.askResume ts).sysDone f 0
  else (s.askResume ts).sysHold h

/-- RESUME.compact (13 R340): it asks once for the resume of every device of a stopped compact, and is complete when its members
are ready. -/
def State.resumeCompact (s s1 : State) (f : SysF) (h : Word) (c : Compact) (ts : List Nat) : Eff :=
  if c.st != .stopped then (if c.moving then .error .stall else s.resumeAll s1 f h ts)
  else if s.me.sysReq == some h then s.sysHold h
  else
    let u := s1.askCompactResume c.num
    if ts.all fun t => (u.task t).live then u.sysDone f 0 else (s.askCompactResume c.num).sysHold h

/-- The tasks that RESUME of task `t` continues: it and its gang; but RESUME.task of a forwarded task continues that one alone (21
R402). -/
def State.resumeSet (s : State) (t : Nat) (scope : Nat) : List Nat :=
  if scope = 0 && (s.task t).run == .forwarded then [t] else s.fellows t

/-- RESUME of scope S: 0 a task, 1 a gang, 2 a compact. -/
def State.resume (s : State) (f : SysF) (scope : Nat) : Eff := do
  s.firing
  let (h, s1) ← s.readSrc f.a
  match s.named h with
  | none => s1.sysDone f (if s.me.sysReq == some h then 0 else 2)
  | some t =>
    match (if scope = 2 then (s.task t).gang.bind s.anyCompactOf else none) with
    | some c => s.resumeCompact s1 f h c (s.fellows t)
    | none => s.resumeAll s1 f h (s.resumeSet t scope)

def execResumeTask (f : SysF) (s : State) := s.runI 0xF41 f.hd [f.d] fun st => st.resume f 0
def execResumeGang (f : SysF) (s : State) := s.runI 0xF41 f.hd [f.d] fun st => st.resume f 1
def execResumeCompact (f : SysF) (s : State) := s.runI 0xF41 f.hd [f.d] fun st => st.resume f 2

/-- Whether the abort of a compact is under way on this device. -/
def State.abortingAt (s : State) (num : Nat) : Bool := s.compacts.any fun c => c.num == num && c.st == .aborting

/-- HALTG (10 R286; 21 R404; 13 R336): d is 0 once the gang has ended, and its compact's abort is done. -/
def execHaltg (f : SysF) (s : State) := s.runI 0xF42 f.hd [f.d] fun st => do
  st.firing
  let (h, s1) ← st.readSrc f.a
  match st.me.halting.filter (·.1 == h), st.named h with
  | some (_, n), _ =>
    if st.abortingAt n then .error (.hold st) else (s1.upd fun t => { t with halting := none }).writeDst f.d 0
  | none, none => s1.writeDst f.d 2
  | none, some t =>
    let s2 ← s1.writeDst f.d 0
    let s3 := s2.fatal t 0 0xF005
    match (st.task t).gang.bind st.anyCompactOf with
    | none => return s3
    | some c =>
      if s3.abortingAt c.num && s3.ready then .error (.hold ((st.fatal t 0 0xF005).upd fun x => { x with halting := some (h, c.num) }))
      else return s3

/-- SALVAGE (20 R391). -/
def execSalvage (f : SysF) (s : State) := s.runI 0xF43 f.hd [f.d] fun st => do
  st.firing
  let (a, s1) ← st.readSrc f.a
  let (b, s2) ← s1.readSrc f.b
  let from' := a.toNat / 128
  let to' := b.toNat / 128
  let e := st.dirEnt from'
  match e.st with
  | .o _ =>
    if physClass b.toNat != .hbm then .error (trapOf cPhys b true)
    else if st.lost.contains (homeDie b.toNat) then .error (trapOf cHomeLost b true)
    else
      match (st.dirEnt to').st with
      | .p .. => .error (trapOf cPinned b true)
      | .pNone _ => .error (trapOf cPinned b true)
      | .l _ => .error (trapOf cPinned b true)
      | _ =>
        stallIf (st.relWait || st.folding b.toNat)
        (((s2.putBytes (to' * 128) e.orphan).updDir to' fun x => { x.calm with st := .i }).updDir from'
          fun x => { x.calm with st := .i, orphan := [] }).writeDst f.d 0
  | _ => s2.writeDst f.d 1

end Sys2Proof.Machine
end

