-- ==== Sys2Proof/Machine/Homes.lean ====
section
/-! DEFINITION. Events at the homes (20 R386-R391, 07 R171): requests served, pushed updates, folding and home loss. The
requests that instructions make are served within the instructions; these events are those of other agents and of the
slabs' own evictions. -/

namespace Sys2Proof.Machine

open Sys2Proof

/-- Whether the home of a line serves a request now: it is not lost (20 R389), and does not move (20 R388). -/
def State.homeServes (s : State) (line : Nat) : Bool := !s.lost.contains (homeDie (128 * line)) && !s.folding (128 * line)

/-- A request at the home of a line. -/
def State.atHome (s : State) (line : Nat) (f : DirEnt → DirEnt) : State := if s.homeServes line then s.updDir line f else s

def execDirRead (clus line : Nat) (s : State) : Host.Outcome State Fault Refusal := (s.atHome line (·.read clus)).event

def execDirReadForOwnership (clus line : Nat) (s : State) : Host.Outcome State Fault Refusal :=
  (s.atHome line (·.own clus s.upden false)).event

/-- An upgrade; from a cluster that no longer shares the line, a read for ownership (20 R386). -/
def execDirUpgrade (clus line : Nat) (s : State) : Host.Outcome State Fault Refusal :=
  (s.atHome line (·.own clus s.upden false)).event

def execDirFarOperation (clus line : Nat) (s : State) : Host.Outcome State Fault Refusal :=
  (s.atHome line (·.atomicOp clus true s.upden)).event

def execDirWriteback (clus line : Nat) (s : State) : Host.Outcome State Fault Refusal :=
  (s.atHome line (·.writeBack clus)).event

def execDirInvlEvict (clus line : Nat) (s : State) : Host.Outcome State Fault Refusal := (s.atHome line (·.drop clus)).event

/-- A clean copy is dropped without telling the home, whose entry stays as it is (20 R386). -/
def execCleanCopyDrop (_clus _line : Nat) (s : State) : Host.Outcome State Fault Refusal := s.event

/-- Whether the bytes lie in one line of HBM. -/
def oneLine (pa n : Nat) : Bool := decide (1 ≤ n) && decide (pa / 128 = (pa + n - 1) / 128) && physClass pa == .hbm

/-- An access by cluster `clus` is performed in the slab of the cluster that pins the line (07 R171). -/
def State.forwardedAccess (s : State) (clus pa n : Nat) (wr : Option Word) : State :=
  match (s.dirEnt (pa / 128)).st, wr with
  | .p 0 c, some v => if c != clus && oneLine pa n && decide (n ≤ 8) && s.homeServes (pa / 128) then s.putBytes pa (natBytes v.toNat n) else s
  | _, _ => s

def execForwardedPinAccess (clus pa n : Nat) (wr : Option Word) (s : State) : Host.Outcome State Fault Refusal :=
  (s.forwardedAccess clus pa n wr).event

/-- The owner's store to a line in update mode is written at home and pushed to the sharer (20 R387). -/
def State.updatePush (s : State) (clus pa n : Nat) (data : Word) : State :=
  let e := s.dirEnt (pa / 128)
  if e.upd && e.lastOwner / 512 == clus && oneLine pa n && decide (n ≤ 8) && s.homeServes (pa / 128) then
    (s.putBytes pa (natBytes data.toNat n)).updDir (pa / 128) (·.push)
  else s

def execUpdatePush (clus pa n : Nat) (data : Word) (s : State) : Host.Outcome State Fault Refusal :=
  (s.updatePush clus pa n data).event

/-! Folding (20 R388). -/

def execSlfoldWrite (v : Word) (s : State) : Host.Outcome State Fault Refusal := (s.slfoldWrite v).event

/-- The entries of a die have moved: its hash changes and FOLDSTAT clears. -/
def State.foldComplete (s : State) (die : Nat) : State :=
  if s.foldstat.getLsbD die then
    let keep := s.slfold &&& ~~~(BitVec.ofNat 16 (3 * 4 ^ die))
    { s with
      slfold := keep ||| (s.foldTo &&& BitVec.ofNat 16 (3 * 4 ^ die))
      foldstat := s.foldstat &&& ~~~(BitVec.ofNat 8 (2 ^ die)) }
  else s

def execFoldComplete (die : Nat) (s : State) : Host.Outcome State Fault Refusal := (s.foldComplete die).event

/-! Home loss (20 R389, R390). -/

/-- The entry of a line whose home is lost: a dirty copy of a cluster that survives becomes an orphan that keeps its data, any other
is dropped. -/
def DirEnt.orphaned (e : DirEnt) (lost : List Nat) (data : List Byte) : DirEnt :=
  let kept := fun c => if lost.contains (dieOfClus c) then { e.calm with st := .i } else { e.calm with st := .o c, orphan := data }
  match e.st with
  | .m c => kept c
  | .p _ c => kept c
  | .o _ => e
  | _ => { e.calm with st := .i }

/-- Compacts with a pinned line homed on a die, those still in Signing among them. -/
def State.compactsAtDie (s : State) (die : Nat) : List Nat :=
  (s.compacts.filter fun c => s.dir.any fun p =>
    homeDie (128 * p.1) == die && match p.2.st with
      | .p n _ => n == c.num
      | .pNone n => n == c.num
      | _ => false).map (·.num)

/-- HOME_LOSS_DECLARE. An MCAS that holds or awaits a lock there, and whose event has not taken place, is abandoned, and takes the
machine check when it is evaluated again (07 R182). -/
def State.homeLoss (s : State) (die : Nat) : State :=
  if s.lost.contains die then s
  else
    let s1 := (({ s with lost := s.lost ++ [die], recover := s.recover ++ [die] } : State).excuse).klogDie (die % 8) 8 0 0
    let hit := s1.tasks.filter fun p => match p.2.mcas with
      | some r => r.seen.isNone && r.lines.any fun l => homeDie (128 * l) == die
      | none => false
    let s2 := hit.foldl (fun st p => st.dropMcas p.1) s1
    let s3 := (s.compactsAtDie die).foldl (fun st n => st.abortCompact n 0xF003 noTile (withFatal 0)) s2
    { s3 with dir := s3.dir.map fun p =>
        if homeDie (128 * p.1) == die then (p.1, p.2.orphaned s3.lost (s3.mem.read (128 * p.1) 128)) else p }

def execHomeLossDeclare (die : Nat) (s : State) : Host.Outcome State Fault Refusal := (s.homeLoss die).event

end Sys2Proof.Machine
end

