-- ==== Sys2Proof/Machine/Crypto.lean ====
section
/-! DEFINITION. The standard algorithms that boot and attestation use (22 R425-R427): SHAKE256 (FIPS 202) and pure Ed448
(RFC 8032) with an empty context. -/

namespace Sys2Proof.Machine

open Sys2Proof

/-! SHAKE256. -/

/-- The rotation of each lane, lane (x, y) at x + 5y. -/
def keccakRot : List Nat :=
  [0, 1, 62, 28, 27, 36, 44, 6, 55, 20, 3, 10, 43, 25, 39, 41, 45, 15, 21, 8, 18, 2, 61, 56, 14]

def keccakRc : List Word :=
  [0x0000000000000001, 0x0000000000008082, 0x800000000000808A, 0x8000000080008000, 0x000000000000808B, 0x0000000080000001,
   0x8000000080008081, 0x8000000000008009, 0x000000000000008A, 0x0000000000000088, 0x0000000080008009, 0x000000008000000A]
  ++ [0x000000008000808B, 0x800000000000008B, 0x8000000000008089, 0x8000000000008003, 0x8000000000008002, 0x8000000000000080,
      0x000000000000800A, 0x800000008000000A, 0x8000000080008081, 0x8000000000008080, 0x0000000080000001, 0x8000000080008008]

/-- Entry `i` of 25 lanes. -/
def laneAt (a : List Word) (i : Nat) : Word := a.getD i 0

/-- One round of the permutation. -/
def keccakRound (a : List Word) (rc : Word) : List Word :=
  let c := (List.range 5).map fun x =>
    laneAt a x ^^^ laneAt a (x + 5) ^^^ laneAt a (x + 10) ^^^ laneAt a (x + 15) ^^^ laneAt a (x + 20)
  let d := (List.range 5).map fun x => laneAt c ((x + 4) % 5) ^^^ (laneAt c ((x + 1) % 5)).rotateLeft 1
  let t := (List.range 25).map fun i => (laneAt a i ^^^ laneAt d (i % 5)).rotateLeft (keccakRot.getD i 0)
  -- lane (x, y) of the result of pi comes from lane (x + 3y, x)
  let b := (List.range 25).map fun i => laneAt t ((i % 5 + 3 * (i / 5)) % 5 + 5 * (i % 5))
  let e := (List.range 25).map fun i =>
    laneAt b i ^^^ (~~~(laneAt b ((i + 1) % 5 + 5 * (i / 5))) &&& laneAt b ((i + 2) % 5 + 5 * (i / 5)))
  (laneAt e 0 ^^^ rc) :: e.drop 1

def keccak (a : List Word) : List Word := keccakRc.foldl keccakRound a

/-- Bytes per block of SHAKE256. -/
def shakeRate : Nat := 136

/-- Absorbs one block. -/
def absorb (a : List Word) (block : List Byte) : List Word :=
  keccak ((List.range 25).map fun i => laneAt a i ^^^ BitVec.ofNat 64 (bytesNum ((block.drop (8 * i)).take 8)))

/-- Absorbs `n` whole blocks. -/
def absorbAll (a : List Word) (bs : List Byte) : Nat → List Word
  | 0 => a
  | n + 1 => absorbAll (absorb a (bs.take shakeRate)) (bs.drop shakeRate) n

/-- Squeezes `n` blocks. -/
def squeeze (a : List Word) : Nat → List Byte
  | 0 => []
  | n + 1 => (a.flatMap wordBytes).take shakeRate ++ squeeze (keccak a) n

/-- `n` bytes of SHAKE256. -/
def shake256 (msg : List Byte) (n : Nat) : List Byte :=
  let room := shakeRate - msg.length % shakeRate
  let pad : List Byte := if room = 1 then [0x9F#8] else 0x1F#8 :: (List.replicate (room - 2) 0 ++ [0x80#8])
  let a := absorbAll (List.replicate 25 0) (msg ++ pad) (msg.length / shakeRate + 1)
  (squeeze a (divUp n shakeRate)).take n

/-! Ed448. -/

def edP : Nat := 2 ^ 448 - 2 ^ 224 - 1
def edL : Nat := 2 ^ 446 - 13818066809895115352007386748515426880336692474882178609894547503885
def edD : Nat := edP - 39081

def powMod (m : Nat) : Nat → Nat → Nat → Nat
  | 0, _, _ => 1
  | n + 1, b, e =>
    let h := powMod m n (b * b % m) (e / 2)
    if e % 2 = 1 then b * h % m else h

def edInv (x : Nat) : Nat := powMod edP 448 x (edP - 2)
def edSub (a b : Nat) : Nat := (a + edP - b % edP) % edP

/-- A point in projective coordinates. -/
structure EdPoint where
  x : Nat
  y : Nat
  z : Nat

def edZero : EdPoint := ⟨0, 1, 1⟩

def edBase : EdPoint :=
  ⟨224580040295924300187604334099896036246789641632564134246125461686950415467406032909029192869357953282578032075146446173674602635247710,
   298819210078481492676017930443930673437544040154080242095928241372331506189835876003536878655418784733982303233503462500531545062832660, 1⟩

def edAdd (p q : EdPoint) : EdPoint :=
  let a := p.z * q.z % edP
  let b := a * a % edP
  let c := p.x * q.x % edP
  let d := p.y * q.y % edP
  let e := edD * c % edP * d % edP
  let f := edSub b e
  let g := (b + e) % edP
  let h := (p.x + p.y) * (q.x + q.y) % edP
  ⟨a * f % edP * edSub (edSub h c) d % edP, a * g % edP * edSub d c % edP, f * g % edP⟩

/-- `k` times a point, over the low `n` bits of `k`. -/
def edMul : Nat → Nat → EdPoint → EdPoint
  | 0, _, _ => edZero
  | n + 1, k, p =>
    let h := edMul n (k / 2) (edAdd p p)
    if k % 2 = 1 then edAdd p h else h

def edSame (p q : EdPoint) : Bool := p.x * q.z % edP == q.x * p.z % edP && p.y * q.z % edP == q.y * p.z % edP

def edEncode (p : EdPoint) : List Byte :=
  let i := edInv p.z
  natBytes (p.y * i % edP) 56 ++ [if p.x * i % edP % 2 = 1 then 0x80#8 else 0#8]

def edDecode (bs : List Byte) : Option EdPoint :=
  let y := bytesNum (bs.take 56)
  let last := (bs.getD 56 0).toNat
  if bs.length != 57 || last % 128 != 0 || edP ≤ y then none
  else
    let u := edSub (y * y) 1
    let v := edSub (edD * (y * y % edP)) 1
    let u3 := u * u % edP * u % edP
    let u5v3 := u3 * u % edP * u % edP * v % edP * v % edP * v % edP
    let x := u3 * v % edP * powMod edP 448 u5v3 ((edP - 3) / 4) % edP
    if v * x % edP * x % edP != u then none
    else if x = 0 && last = 128 then none
    else some ⟨if x % 2 = last / 128 then x else edSub 0 x, y, 1⟩

/-- dom4 with no prehash and an empty context. -/
def edDom : List Byte := [0x53#8, 0x69#8, 0x67#8, 0x45#8, 0x64#8, 0x34#8, 0x34#8, 0x38#8, 0#8, 0#8]

def edHash (bs : List Byte) : Nat := bytesNum (shake256 (edDom ++ bs) 114) % edL

def edVerify (key msg sig : List Byte) : Bool :=
  let r := sig.take 57
  let sc := bytesNum (sig.drop 57)
  match edDecode key, edDecode r with
  | some a, some rp =>
    let k := edHash (r ++ key ++ msg)
    let four := fun p => edMul 3 4 p
    sig.length == 114 && decide (sc < edL)
      && edSame (four (edMul 446 sc edBase)) (edAdd (four rp) (four (edMul 446 k a)))
  | _, _ => false

/-- The scalar of a 57-byte secret. -/
def edScalar (h : List Byte) : Nat :=
  let x := bytesNum (h.take 56)
  x - x % 4 - (if x.testBit 447 then 2 ^ 447 else 0) + 2 ^ 447

def edPublic (secret : List Byte) : List Byte := edEncode (edMul 448 (edScalar (shake256 secret 114)) edBase)

def edSign (secret msg : List Byte) : List Byte :=
  let h := shake256 secret 114
  let s := edScalar h
  let pub := edEncode (edMul 448 s edBase)
  let r := edHash (h.drop 57 ++ msg)
  let rb := edEncode (edMul 446 r edBase)
  let k := edHash (rb ++ pub ++ msg)
  rb ++ natBytes ((r + k * s) % edL) 57

end Sys2Proof.Machine
end

