-- ==== Sys2Proof/Machine/HostPort.lean ====
section
/-! DEFINITION. The ports, mailboxes, boot, attestation, power and telemetry (22 R418-R427; 23 R428-R433). -/

namespace Sys2Proof.Machine

open Sys2Proof

/-! BAR2 (22 R419). -/

/-- The aligned 8-byte pieces of `n` bytes at an offset, each with its length. -/
def barPieces (off n : Nat) : List (Nat × Nat) :=
  (wordsOf off n).map fun w =>
    let lo := Nat.max off (8 * w)
    (lo, Nat.min (off + n) (8 * w + 8) - lo)

/-- How a port's access finds one piece; a wait may be one in a line's queue. -/
inductive BarSt where
  | go
  | wait (line : Option Nat)
  | parked (comp line : Nat)
  | poisoned
  deriving DecidableEq, Repr

/-- How a read or, with `wr`, a write through a port finds the piece at `pa`; `r` is the reader as which a read parks. A read whose
boundary serves it goes on (13 R331); while a compact dissolves, requests wait (13 R338), and at a line that an MCAS has
locked in their order of arrival (07 R179). -/
def State.barState (s : State) (r : Reader) (peer wr : Bool) (pa : Nat) : BarSt :=
  let line := pa / 128
  let free := if s.poison.contains (pa / 8) then BarSt.poisoned else .go
  let pinned := fun (n : Nat) => match s.compact? n with
    | none => free
    | some c =>
      if c.st == .dissolving then .wait none
      else if (s.servedOf (some r)).any fun p => p.comp == n && p.line == line then free
      else .parked n line
  if s.lost.contains (homeDie pa) then .poisoned
  else if s.folding pa then .wait none
  else
    match (s.dirEnt line).st with
    | .l _ => .wait (some line)
    | .o _ => .poisoned
    | .p 0 _ => free
    | .p n _ => pinned n
    | .pNone n => pinned n
    | _ => if s.firstAt line (.port peer wr) then free else .wait (some line)

/-- A posted write of the port waits to be performed: what the port does after it waits too, or is offered again (22 R419). -/
def State.portHeld (s : State) (peer : Bool) : Bool := s.barWrites.any fun w => w.1 == peer

/-- A port's access takes its places at the locked lines and parks at the lines of compacts. -/
def State.barWait (s : State) (r : Reader) (peer wr : Bool) (l : List BarSt) : State :=
  l.foldl (fun st x => match x with
    | .wait (some line) => st.queueAt line (.port peer wr)
    | .parked c line => if wr then st else st.parkAt r c line
    | _ => st) s

/-- A port's access has been performed: it has left the queues of its lines. -/
def State.barPassed (s : State) (peer wr : Bool) (off n : Nat) : State :=
  if s.lockWaits.isEmpty then s
  else { s with lockWaits := s.lockWaits.filter fun y => !((linesOf off n).contains y.1 && y.2 == .port peer wr) }

/-- Whether a piece stands in the way of an access. -/
def BarSt.bars : BarSt → Bool
  | .wait _ => true
  | .parked _ _ => true
  | _ => false

/-- A read of HBM through a port, after every earlier posted write of the port. One that must wait is held. -/
def State.bar2Read (s : State) (peer : Bool) (off n : Nat) : State :=
  let held : State := { s with barReads := s.barReads ++ [(peer, off, n)] }
  if s.portHeld peer then held
  else
    let r : Reader := .host peer off n
    let l := (barPieces off n).map fun p => s.barState r peer false p.1
    if l.any BarSt.bars then held.barWait r peer false l
    else ((s.servedDone r []).barPassed peer false off n).emit (.barData peer (s.mem.read off n) (l.contains .poisoned))

/-- The reads that wait are performed where they can be. -/
def State.settleReads (s : State) : State :=
  s.barReads.foldl (fun st w => st.bar2Read w.1 w.2.1 w.2.2) { s with barReads := [] }

def execBar2Read (peer : Bool) (off n : Nat) (s : State) : Host.Outcome State Fault Refusal :=
  (if off + n ≤ 2 ^ 40 then s.bar2Read peer off n else s).event

/-- A line that the port writes: no cluster keeps a copy; a task's pin stays (20 R386, 07 R171). -/
def State.portWrites (s : State) (pa n : Nat) : State := (linesOf pa n).foldl (fun st l => st.updDir l (·.far)) s

/-- A posted write of HBM through a port, in the order received from its port; one that must wait is held (22 R419). Pieces at
lines pinned by a compact are dropped and the write is counted. -/
def State.bar2Write (s : State) (peer : Bool) (off : Nat) (bs : List Byte) : State :=
  let held : State := { s with barWrites := s.barWrites ++ [(peer, off, bs)] }
  let r : Reader := .host peer off 0
  let ps := (barPieces off bs.length).map fun p => (p, s.barState r peer true p.1)
  let pinned := fun (p : (Nat × Nat) × BarSt) => p.2 matches .parked _ _
  if s.portHeld peer then held
  else if ps.any fun p => p.2 matches .wait _ then held.barWait r peer true (ps.map (·.2))
  else
    let gone := fun (p : (Nat × Nat) × BarSt) => s.lost.contains (homeDie p.1.1) || (s.dirEnt (p.1.1 / 128)).st matches .o _
    let s1 := ps.foldl (fun st p =>
      if pinned p || gone p then st
      else (st.portWrites p.1.1 p.1.2).putBytes p.1.1 ((bs.drop (p.1.1 - off)).take p.1.2)) (s.barPassed peer true off bs.length)
    if ps.any pinned then { s1 with delDrop := (s1.delDrop + 1) % 2 ^ 32 } else s1

/-- The posted writes that wait are performed where they can be, each port's in order. -/
def State.settleWrites (s : State) : State :=
  s.barWrites.foldl (fun st w => st.bar2Write w.1 w.2.1 w.2.2) { s with barWrites := [] }

def execBar2Write (peer : Bool) (off : Nat) (bytes : List Byte) (s : State) : Host.Outcome State Fault Refusal :=
  (if off + bytes.length ≤ 2 ^ 40 then s.bar2Write peer off bytes else s).event

/-! Mailboxes (22 R420-R424). A mailbox answers only the port that it belongs to, and what its host writes comes after the
posted writes of the port. -/

def State.ofPort (s : State) (peer : Bool) (mb : Nat) : Bool := decide (mb < 64) && (s.mbox mb).port == peer

def State.hostWrites (s : State) (peer : Bool) (mb : Nat) : Bool := s.ofPort peer mb && !s.portHeld peer

def execHseqWrite (peer : Bool) (mb : Nat) (v : BitVec 32) (s : State) : Host.Outcome State Fault Refusal :=
  (if s.hostWrites peer mb then s.hseqWrite mb v else s).event

def execDconsWrite (peer : Bool) (mb : Nat) (v : BitVec 32) (s : State) : Host.Outcome State Fault Refusal :=
  (if s.hostWrites peer mb then s.dconsWrite mb v else s).event

def execHconsWrite (mb : Nat) (v : BitVec 32) (s : State) : Host.Outcome State Fault Refusal :=
  (if mb < 64 then s.hconsWrite mb v else s).event

def execDseqWrite (mb : Nat) (v : BitVec 32) (s : State) : Host.Outcome State Fault Refusal :=
  (if mb < 64 then s.dseqWrite mb v else s).event

def execMbportWrite (mb : Nat) (peer : Bool) (s : State) : Host.Outcome State Fault Refusal :=
  (if mb < 64 then s.mbportWrite mb peer else s).event

/-- The word `old` at `o` with the bytes of a write from `off`. -/
def mergeWord (old : Word) (o off : Nat) (bs : List Byte) : Word :=
  let l := wordBytes old
  BitVec.ofNat 64 (bytesNum ((List.range 8).map fun i =>
    if off ≤ o + i then bs.getD (o + i - off) (l.getD i 0) else l.getD i 0))

/-- A write of the register at `o` of a mailbox block: the host writes HSEQ and DCONS, where a byte of SEQ is covered, and
clears ERR. -/
def State.mboxRegWrite (s : State) (mb o off : Nat) (bs : List Byte) : State :=
  let old := (s.mboxWord mb o).getD 0
  let v := mergeWord (if o = 2048 then setBit old 32 false else old) o off bs
  let seq := decide (off < o + 4)
  if o = 2048 then
    let s1 := s.clearErr mb v
    if seq then s1.hseqWrite mb (v.setWidth 32) else s1
  else if o = 2072 && seq then s.dconsWrite mb (v.setWidth 32)
  else s

/-- A write through BAR0 into a mailbox block: slots are stored, then the registers are written, one after the other. -/
def State.bar0Write (s : State) (mb off : Nat) (bs : List Byte) : State :=
  let s1 := if off < 2048 then s.updMbox mb fun x => { x with data := x.data.write off (bs.take (2048 - off)) } else s
  let lo := Nat.max off 2048
  (barPieces lo (off + bs.length - lo)).foldl (fun st p => st.mboxRegWrite mb (alignDown p.1 8) off bs) s1

def execBar0MailboxWrite (peer : Bool) (mb off : Nat) (bytes : List Byte) (s : State) :
    Host.Outcome State Fault Refusal := (if s.hostWrites peer mb then s.bar0Write mb off bytes else s).event

/-- A vector is unmasked; a pending message is sent (22 R424). -/
def State.msixUnmask (s : State) (peer : Bool) (vec : Nat) : State :=
  let x := s.msixOf peer vec
  let s1 := s.setMsix peer vec { x with masked := false, pending := false }
  if x.pending then s1.emit (.msix peer vec x.addr x.data) else s1

def execMsixUnmask (peer : Bool) (vec : Nat) (s : State) : Host.Outcome State Fault Refusal :=
  (if vec < 64 then s.msixUnmask peer vec else s).event

/-- A PCIe hot reset keeps the sequence registers and MBPORT (22 R423); the port's MSI-X table and its accesses under way
are reset under the PCI Express rules. -/
def State.hotReset (s : State) (peer : Bool) : State :=
  let s1 := if peer then { s with msixPeer := [] } else { s with msixHost := [] }
  { s1 with
    barWrites := s1.barWrites.filter fun w => w.1 != peer
    barReads := s1.barReads.filter fun w => w.1 != peer
    lockWaits := s1.lockWaits.filter fun w => w.2 != .port peer false && w.2 != .port peer true
    parked := s1.parked.filter fun p => match p.reader with
      | .host q _ _ => q != peer
      | _ => true }

def execPcieHotReset (peer : Bool) (s : State) : Host.Outcome State Fault Refusal := (s.hotReset peer).event

/-! Boot (22 R425, R426). -/

/-- BOOTADDR (22 R425). -/
def State.bootaddrWrite (s : State) (v : Word) : State := { s with bootaddr := v &&& 0xF_FFFF_FFFF_FF00#64 }

/-- BOOTGO is ignored while the ROM verifies or the firing program runs. -/
def State.bootGo (s : State) : State :=
  if s.bootstat = 0 || 16 ≤ s.bootstat.toNat then { s with bootstat := 1 } else s

def execBootgo (s : State) : Host.Outcome State Fault Refusal := s.bootGo.event

/-! BAR0 besides the mailboxes' writes (22 R418, R424, R425; assumption 90). -/

/-- The pending-bit array of a port. -/
def State.pendingBits (s : State) (peer : Bool) : Word :=
  BitVec.ofNat 64 ((List.range 64).foldl (fun n i => if (s.msixOf peer i).pending then n + 2 ^ i else n) 0)

/-- The 8 bytes at offset `o`, a multiple of 8, of BAR0 of a port. -/
def State.bar0Word (s : State) (peer : Bool) (o : Nat) : Word :=
  if o < 0x4_0000 then (if s.ofPort peer (o / 4096) then (s.mboxWord (o / 4096) (o % 4096)).getD 0 else 0)
  else if o = 0x4_0000 then (if peer then 0 else s.bootaddr)
  else if o = 0x4_0010 then (if peer then 0 else s.bootstat.setWidth 64)
  else if 0x6_0000 ≤ o && o < 0x6_0400 then
    let x := s.msixOf peer ((o - 0x6_0000) / 16)
    if o % 16 = 0 then x.addr else BitVec.ofNat 64 (x.data.toNat + if x.masked then 2 ^ 32 else 0)
  else if o = 0x6_1000 then s.pendingBits peer
  else 0

/-- A read of BAR0. -/
def State.bar0Read (s : State) (peer : Bool) (off n : Nat) : State :=
  s.emit (.barData peer ((List.range n).map fun i =>
    (s.bar0Word peer ((off + i) / 8 * 8)).extractLsb' (8 * ((off + i) % 8)) 8) false)

/-- A write of those 8 bytes, the bytes that it does not cover as they read: the boot registers and the MSI-X table. -/
def State.bar0Put (s : State) (peer : Bool) (o : Nat) (v : Word) : State :=
  if o = 0x4_0000 then (if peer then s else s.bootaddrWrite v)
  else if o = 0x4_0008 then (if peer || !bit1 v 0 then s else s.bootGo)
  else if 0x6_0000 ≤ o && o < 0x6_0400 then
    let i := (o - 0x6_0000) / 16
    let x := s.msixOf peer i
    if o % 16 = 0 then s.setMsix peer i { x with addr := v }
    else
      let s1 := s.setMsix peer i { x with data := v.setWidth 32, masked := bit1 v 32 }
      if bit1 v 32 then s1 else s1.msixUnmask peer i
  else s

def State.bar0RegWrite (s : State) (peer : Bool) (off : Nat) (bs : List Byte) : State :=
  (barPieces off bs.length).foldl (fun st p => let o := alignDown p.1 8; st.bar0Put peer o (mergeWord (st.bar0Word peer o) o off bs)) s

/-- What a port's host does through BAR0, in the BAR's 512 KiB, after the posted writes of the port. -/
def State.portAct (s : State) (peer : Bool) : PortOp → State
  | .read off n => if off + n ≤ 2 ^ 19 && !s.portHeld peer then s.bar0Read peer off n else s
  | .write off bs => if off + bs.length ≤ 2 ^ 19 && !s.portHeld peer then s.bar0RegWrite peer off bs else s

def sha (bs : List Byte) : List Byte := shake256 bs 64

/-- Cuts or fills a list to `n` bytes. -/
def sized (n : Nat) (l : List Byte) : List Byte := (l ++ List.replicate n 0).take n

/-- The measurement after an event (22 R426). -/
def extend (value : List Byte) (type : Word) (digest : List Byte) : List Byte :=
  sha (value ++ wordBytes type ++ sized 64 digest)

/-- The image's header (22 R425). -/
structure Header where
  magic : Nat
  len : Nat
  entry : Nat
  version : Nat

def State.header (s : State) : Header :=
  let a := s.bootaddr.toNat
  let f := fun o => s.mem.num (a + o) 8
  { magic := f 0, len := f 8, entry := f 16, version := f 24 }

/-- The header is good: its magic, a body of 1 to 2^30 bytes, an entry that is a slot of the body, and zero bytes. -/
def State.headerOk (s : State) : Bool :=
  let h := s.header
  let a := s.bootaddr.toNat
  h.magic == 0x45565449 && decide (1 ≤ h.len) && decide (h.len ≤ 2 ^ 30) && decide (h.entry < h.len)
    && decide (h.entry % 64 < 60) && h.entry % 64 % 12 == 0 && (s.mem.read (a + 146) 110).all (· == 0)

/-- The image lies in HBM and none of it is lost or poisoned. -/
def State.imageReadable (s : State) (n : Nat) : Bool :=
  let a := s.bootaddr.toNat
  decide (a + n ≤ 2 ^ 40) && s.lost.all (fun d => homeDie a != d && homeDie (a + n - 1) != d)
    && s.poison.all fun w => decide (8 * w + 8 ≤ a) || decide (a + n ≤ 8 * w)

/-- The digest D. -/
def State.imageDigest (s : State) : List Byte :=
  let a := s.bootaddr.toNat
  sha (s.mem.read a 32 ++ s.mem.read (a + 256) s.header.len)

/-- The outcome of the verification: 2, or a failure code. -/
def State.bootCode (s : State) : Nat :=
  if !s.imageReadable 256 then 0x13
  else if !s.headerOk then 0x10
  else if !s.imageReadable (256 + s.header.len) then 0x13
  else if !edVerify Config.vendorKey s.imageDigest (s.mem.read (s.bootaddr.toNat + 32) 114) then 0x11
  else if s.header.version < s.rollback.toNat then 0x12
  else 2

/-- The ROM starts the firing program in domain 0 on tile 0. -/
def State.startFiring (s : State) : State :=
  match s.pickFrame 0 with
  | none => s
  | some f =>
    let b : Start :=
      { code := s.bootaddr + 256 + BitVec.ofNat 64 s.header.entry, dom := 0, tile := 0, ctx := 0, keep := false, gang := none
        share := 0, clk := [] }
    (s.free.2).newTask f b fun v => v

/-- BOOT_VERIFY_DONE. -/
def State.bootDone (s : State) : State :=
  if s.bootstat != 1 then s
  else
    let code := s.bootCode
    if code != 2 then { s with bootstat := BitVec.ofNat 8 code }
    else
      let m := extend (extend (List.replicate 64 0) 0 Config.romDigest) 1 s.imageDigest
      ({ s with bootstat := 2, measure := m, measured := 2, version := BitVec.ofNat 64 s.header.version } : State).startFiring

def execBootVerifyDone (s : State) : Host.Outcome State Fault Refusal := s.bootDone.event

/-- Cold reset: the state of reset, but for the fuses and what is outside the device. -/
def State.coldReset (s : State) : State :=
  { State.reset with
    part := s.part, present := s.present, rollback := s.rollback, sensors := s.sensors, outputs := s.outputs
    notices := s.notices, agenda := s.agenda, downLinks := s.downLinks, fresh := s.fresh, cx := s.cx, ckRank := s.ckRank, nextId := s.nextId }

def execColdReset (s : State) : Host.Outcome State Fault Refusal := s.coldReset.event

/-- What warm reset keeps of a die: its kiln log and error counters (23 R431, R432). -/
def Die.warm (d : Die) : Die :=
  { Die.reset with klog := d.klog, klhead := d.klhead, corrSram := d.corrSram, corrHbm := d.corrHbm, poisoned := d.poisoned }

/-- What warm reset keeps of a mailbox: its slots, sequence registers and MBPORT (22 R423). -/
def Mbox.warm (x : Mbox) : Mbox := { x with task := 0 }

/-- Warm reset (22 R423, R425; 23 R428, R432). -/
def State.warmReset (s : State) : State :=
  let c := s.coldReset
  let s1 : State :=
    { c with
      cycle := s.cycle, mboxes := s.mboxes.mapVal Mbox.warm, msixHost := s.msixHost, msixPeer := s.msixPeer
      pklimit := s.pklimit, capping := s.capping, dies := s.dies.mapVal Die.warm }
  (List.range 8).foldl (fun st d => st.klogDie d 9 0 0) s1

def execWarmReset (s : State) : Host.Outcome State Fault Refusal := s.warmReset.event

/-! Measurement and attestation (22 R426, R427). -/

/-- The firing program runs. -/
def State.firingRuns (s : State) : Bool := s.bootstat == 2

/-- The firing program's events: up to 254 beyond the ROM's two. -/
def State.measureEvent (s : State) (type : Word) (digest : List Byte) : State :=
  if s.firingRuns && decide (s.measured < 256) then { s with measure := extend s.measure type digest, measured := s.measured + 1 } else s

def execMeasurementAppend (type : Word) (digest : List Byte) (s : State) : Host.Outcome State Fault Refusal :=
  (s.measureEvent type digest).event

/-- The working clusters of a part (00 R1). -/
def Part.working : Part → Nat
  | .ev4096lm => 512
  | .ev4096pk => 512
  | .ev3584lm => 448

/-- The fuses of a device show its part's working clusters (00 R1, 01 R13). -/
def State.partOk (s : State) : Bool := s.presentList.length == s.part.working

def partCode : Part → Nat
  | .ev4096lm => 0
  | .ev4096pk => 1
  | .ev3584lm => 2

/-- The 336-byte report over a nonce. -/
def State.report (s : State) (nonce : List Byte) : List Byte :=
  let head := sized 64 nonce ++ sized 64 s.measure ++ natBytes s.measured 8 ++ natBytes (partCode s.part) 8
    ++ wordBytes s.version ++ edPublic (sized 57 Config.identitySecret) ++ List.replicate 7 0
  head ++ edSign (sized 57 Config.identitySecret) (sha head) ++ List.replicate 6 0

/-- Only the firing program can request a report. -/
def execAttestationReport (nonce : List Byte) (s : State) : Host.Outcome State Fault Refusal :=
  (if s.firingRuns then s.emit (.report (s.report nonce)) else s).event

/-! Power and telemetry (23 R428-R432). -/

/-- The package power limit in watts. -/
def State.powerLimit (s : State) : Nat :=
  match s.part with
  | .ev4096lm => 3600
  | .ev4096pk => s.pklimit
  | .ev3584lm => 3200

/-- Capping is entered in the kiln log of die 0. -/
def State.cappingLog (s : State) (kind : Nat) : State := s.klogDie 0 kind 0 0

/-- The end of a 1 ms window of average power `watts`. -/
def State.cappingWindow (s : State) (watts : Nat) : State :=
  if !s.capping && s.powerLimit < watts then ({ s with capping := true } : State).cappingLog 5
  else if s.capping && 100 * watts < 97 * s.powerLimit then ({ s with capping := false } : State).cappingLog 6
  else s

def execCappingWindow (watts : Nat) (s : State) : Host.Outcome State Fault Refusal := (s.cappingWindow watts).event

def sensorExists (n : Nat) : Bool :=
  n == 1 || n == 2 || (16 ≤ n && n < 24) || (32 ≤ n && n ≤ 48) || (64 ≤ n && n < 88)

/-- Sensors whose readings come from outside the logic: power and temperatures. -/
def sensorOutside (n : Nat) : Bool := n == 1 || (16 ≤ n && n < 24) || (32 ≤ n && n ≤ 48)

/-- The readings are refreshed: those from outside as given, the others from the device. -/
def State.telemetry (s : State) (readings : List (Nat × Nat)) : State :=
  let m := readings.foldl (fun (m : Map Nat) r =>
    if !sensorOutside r.1 then m else m.set r.1 (if r.1 == 48 && s.part == .ev4096pk then 0 else r.2)) s.sensors
  let m1 := m.set 2 (if s.capping then 1 else 0)
  { s with sensors := (List.range 8).foldl (fun (x : Map Nat) d =>
      ((x.set (64 + d) (s.die d).corrSram).set (72 + d) (s.die d).corrHbm).set (80 + d) (s.die d).poisoned) m1 }

def execTelemetryRefresh (readings : List (Nat × Nat)) (s : State) : Host.Outcome State Fault Refusal :=
  (s.telemetry readings).event

def execPldmGetSensorReading (sensor : Nat) (s : State) : Host.Outcome State Fault Refusal :=
  (s.emit (if sensorExists sensor then .pldm (s.sensors.getD sensor 0) else .pldmError)).event

/-- The file KILNLOGd: the ring's entries and KLHEAD. -/
def State.klogFile (s : State) (die : Nat) : List (List Byte) :=
  ((List.range 4096).map fun i => (s.die die).klog.getD i (List.replicate 32 0)) ++ [natBytes (s.die die).klhead 8]

def execPldmKilnlogRead (die : Nat) (s : State) : Host.Outcome State Fault Refusal :=
  (s.emit (if die < 8 then .pldmFile (s.klogFile die) else .pldmError)).event

/-- PKLIMIT (23 R428): only the EV4096-PK has the effecter. -/
def State.pklimitWrite (s : State) (watts : Nat) : State :=
  if s.part == .ev4096pk && decide (1000 ≤ watts) && decide (watts ≤ 3600) then { s with pklimit := watts }
  else s.emit .pldmError

def execPklimitWrite (watts : Nat) (s : State) : Host.Outcome State Fault Refusal := (s.pklimitWrite watts).event

/-- An Ethernet port's link (20 R385). -/
def State.linkChange (s : State) (port : Nat) (up : Bool) : State :=
  { s with uetcfg := s.uetcfg.setIfInBounds port (setBit (vecAt s.uetcfg port) 1 up) }

def execEthernetLinkChange (port : Nat) (up : Bool) (s : State) : Host.Outcome State Fault Refusal :=
  (s.linkChange port up).event

end Sys2Proof.Machine
end

