-- ==== Sys2Proof/Machine/Mcas.lean ====
section
/-! DEFINITION. MCAS (07 R176-R182, 11 R308, 19 R376). -/

namespace Sys2Proof.Machine

open Sys2Proof

def cMcas : Nat := 0x0F

/-! The block and its checks (07 R176, R178). -/

/-- 32 bytes of a block, a data read by the task; a fault names the block. -/
def State.mcasPiece (s : State) (blk va : Word) : Except Stop (Nat × Nat × Bool × State) := do
  let a : Acc := { va := va, n := 32, al := 1, wr := false }
  let (pa, t) ← s.pass ((s.check s.whoMe a).atAddr blk)
  let (x, s1) := s.readAt s.whoMe a pa t
  return (x, pa, t.chk, s1)

/-- The fields of an entry as the block holds them, with the place of its OBS field. -/
structure McasField where
  va : Word
  exp : Word
  new : Word
  obs : Nat
  obsVa : Word
  obsChk : Bool

/-- The entries of the block are read before any of them is checked (07 R178). -/
def State.mcasFields (s : State) (blk : Word) : Nat → List McasField → Except Stop (List McasField × State)
  | 0, acc => .ok (acc, s)
  | n + 1, acc => do
    let va := blk + BitVec.ofNat 64 (32 + 32 * acc.length)
    let (x, pa, chk, s1) ← s.mcasPiece blk va
    let w := fun i => BitVec.ofNat 64 (x / 2 ^ (64 * i))
    s1.mcasFields blk n (acc ++ [{ va := w 0, exp := w 1, new := w 2, obs := pa + 24, obsVa := va + 24, obsChk := chk }])

/-- The target word of an entry, translated (07 R178); a shadow area is closed to it (13 R334). -/
def State.mcasEntry (s : State) (e : McasField) : Except Stop McasEntry := do
  let (tpa, t) ← s.pass (s.check15 { va := e.va, n := 8, al := 8, wr := true })
  if s.inShadow tpa 8 then .error (trapOf cPinned e.va true)
  else
    return { va := e.va, pa := tpa, chk := t.chk, exp := e.exp, new := e.new, obs := e.obs, obsVa := e.obsVa
             obsChk := e.obsChk }

/-- The block's entries, every one read and then every target checked, in entry order. -/
def State.mcasEntries (s : State) (blk : Word) (n : Nat) : Except Stop (List McasEntry × State) := do
  let (fs, s1) ← s.mcasFields blk n []
  let es ← fs.mapM s1.mcasEntry
  return (es, s1)

/-- The distinct target lines in ascending order (07 R179 step 1). -/
def mcasLines (es : List McasEntry) : List Nat := es.foldl (fun l e => insertNat l (e.pa / 128)) []

/-- The operation that an MCAS instruction asks for, with every check of 07 R178 made. The manual gives the conditions of R178 no
order: those of the header come first, then each target's own, entry by entry, then the two words or lines that may not
meet, then the pins (assumption 100). -/
def State.mcasPlan (s : State) (f : MemF) : Except Stop (McasRec × State) := do
  let inst ← s.memScope f
  let va := s.memEa f
  stallIf (s.me.vq.any VEntry.touchesMemory || !s.wheelSpans.isEmpty || (ordRel f.order.toNat && s.relWait))
  if highBits va then .error (trapOf cAddress va)
  else if va.toNat % 32 != 0 then .error (trapOf cMcas va)
  else
    let (h, hpa, _, s1) ← s.mcasPiece va va
    if h = 0 || 8 < h then .error (trapOf cMcas va)
    else
      let (es, s2) ← s1.mcasEntries va h
      let words := es.map fun e => e.pa / 8
      let blkLines := hpa / 128 :: es.map fun e => e.obs / 128
      if words.eraseDups.length != words.length || es.any (fun e => blkLines.contains (e.pa / 128)) then
        .error (trapOf cMcas va)
      else
        match es.find? fun e => (s2.dirEnt (e.pa / 128)).pinnedBy.isSome with
        | some e => .error (trapOf cPinned e.va true)
        | none =>
          return ({ entries := es, lines := mcasLines es, held := 0, dst := f.d, next := s.cx.next, uni := f.hd.u,
                    order := f.order.toNat, inst := inst }, s2)

/-! The event (07 R179 steps 4 to 7, R180). -/

/-- The lowest entry whose word differs from its EXP, plus 1; 0 when none does. -/
def mcasStatus (s : State) : List McasEntry → Nat → Nat
  | [], _ => 0
  | e :: r, j => if s.mem.num e.pa 8 = e.exp.toNat then mcasStatus s r (j + 1) else j + 1

/-- The accesses that one of an event to a word conflicts with; `acq` is what the event acquires there. -/
def State.mcasConflicts (s : State) (pa : Nat) (chk wr data : Bool) (acq : Clock) : List Wit :=
  let who := s.whoMe
  if chk then s.conflictsAt pa 8 who.party (Clock.join who.clk acq) wr data else []

/-- What the event acquires from its target words (11 R289). -/
def State.mcasAcq (s : State) (r : McasRec) : Clock :=
  r.entries.foldl (fun k e => Clock.join k (s.acqAt e.pa 8 (acqInst r.order r.inst) s.myTile)) []

/-- The conflict exception of the event's target words: at that of the lowest entry, with PW for all of them (11 R300, 19
R376). -/
def State.mcasConflict (s : State) (r : McasRec) (wr : Bool) : Option Trap :=
  let acq := s.mcasAcq r
  let at' := fun (e : McasEntry) => s.mcasConflicts e.pa e.chk wr false acq
  (r.entries.find? fun e => !(at' e).isEmpty).map fun e =>
    { cause := cConflict, addr := e.va, w := true, pw := r.entries.any fun x => (at' x).any (·.wr) }

/-- What bars the data write of an OBS field: a pin (07 R161 step 6) or a conflict. -/
def State.mcasObsBad (s : State) (r : McasRec) (e : McasEntry) : Option Trap :=
  let a : Acc := { va := e.obsVa, n := 8, al := 8, wr := true }
  match s.lineCheck s.whoMe a (e.obs / 128) with
  | some (.trap t) => some t
  | _ =>
    let cs := s.mcasConflicts e.obs e.obsChk true true (s.mcasAcq r)
    if cs.isEmpty then none else some { cause := cConflict, addr := e.obsVa, w := true, pw := cs.any (·.wr) }

/-- What stops the event: a conflict at a target word, of the lowest entry, before any is read (19 R376); a lost or poisoned
target word; what bars the data write to an OBS field. An event that fails writes no target word (11 R308). -/
def State.mcasBad (s : State) (r : McasRec) : Option Trap :=
  let wr := mcasStatus s r.entries 0 == 0
  let hard := fun (e : McasEntry) =>
    if s.lost.contains (homeDie e.pa) then some ({ cause := cHomeLost, addr := e.va, w := true } : Trap)
    else if s.poison.contains (e.pa / 8) then some { cause := cMemCheck, addr := e.va, w := true }
    else none
  (s.mcasConflict r wr).orElse fun _ =>
    (r.entries.findSome? hard).orElse fun _ => r.entries.findSome? (s.mcasObsBad r)

/-- The witness of a word that the event reads or writes. -/
def State.mcasNote (s : State) (pa : Nat) (chk wr data : Bool) : State :=
  let who := s.whoMe
  if chk then s.witness pa 8 { party := who.party, epoch := Clock.at who.clk who.party, wr := wr, data := data } else s

/-- The event of the current task's MCAS with every lock held: the status, the values observed, and the state after it. -/
def State.mcasEvent (s : State) (r : McasRec) : Except Trap (Nat × List Nat × State) :=
  match s.mcasBad r with
  | some t => .error t
  | none =>
    let olds := r.entries.map fun e => s.mem.num e.pa 8
    let st := mcasStatus s r.entries 0
    let s1 := r.entries.foldl (fun u e => (u.mcasNote e.pa e.chk (st == 0) false).mcasNote e.obs e.obsChk true true) s
    let s2 := r.entries.foldl (fun u e => u.atomicRead e.pa 8 r.order r.inst) s1
    let s3 :=
      if st = 0 then
        let fences := s2.me.fenceRel
        let (k, u) := if ordRel r.order then s2.release s2.cur else ([], s2)
        let new := if ordRel r.order then { clk := k, inst := r.inst, tile := u.myTile } :: fences else fences
        r.entries.foldl
          (fun x e => (x.setRels e.pa 8 true new).setMem (x.mem.write e.pa (wordBytes e.new))) u
      else s2
    .ok (st, olds, s3)

/-- A target line after the event: no cache holds it, and its lock is free. -/
def DirEnt.unlock (e : DirEnt) : DirEnt := { e.calm with st := .i }

def State.unlockLines (s : State) (ls : List Nat) : State := ls.reverse.foldl (fun st l => st.updDir l DirEnt.unlock) s

/-- Lines that an MCAS has locked and freed without its event: recalled from every cluster (07 R179 step 2). -/
def State.recallLines (s : State) (ls : List Nat) : State := ls.foldl (fun st l => st.updDir l DirEnt.far) s

/-- A line that the engine of task `t` can lock at once: it is free, and nobody came to its home before (07 R179 step 3). -/
def State.lockable (s : State) (t l : Nat) : Bool :=
  !((s.dirEnt l).st matches .l _) && !s.folding (l * 128) && s.firstAt l (.mcas t)

/-- Whether the OBS fields can be written now (07 R181), and the witness bits have room for the event (11 R301). -/
def State.obsFree (s : State) (r : McasRec) : Bool :=
  s.groupFree ({ r with seen := some (0, r.entries.map fun _ => 0) }.obsGroup s.myClus s.me.party)

def State.witRoom (s : State) (r : McasRec) : Bool :=
  let x := fun data : Bool => ({ party := s.me.party, epoch := Clock.at s.accClk s.me.party, wr := true, data := data } : Wit)
  !s.witFull (r.entries.flatMap fun e =>
    (if e.chk then [(e.pa / 8, x false)] else []) ++ if e.obsChk then [(e.obs / 8, x true)] else [])

/-- MCAS. When its locks are free and the units serve it in the same turn, its event takes place in it; otherwise its
engine queues for the first lock (07 R179). -/
def execMcas (f : MemF) (s : State) := s.runI 0x341 f.hd [f.d] fun st => do
  let (r, s1) ← st.mcasPlan f
  if st.cx.now && r.lines.all (s1.lockable st.cur) && s1.obsFree r && s1.witRoom r then
    match s1.mcasEvent r with
    | .error t => .error (.trapIn (s1.recallLines r.lines) t)
    | .ok (x, olds, s2) =>
      ((s2.putGroup ({ r with seen := some (x, olds) }.obsGroup st.myClus st.me.party)).unlockLines r.lines).writeDst f.d (BitVec.ofNat 64 x)
  else
    let s2 := s1.upd fun t => { t with mcas := some r }
    .error (.hold (s2.queueAt (r.lines.headD 0) (.mcas st.cur)))

/-! The engine (07 R179, R182). -/

/-- The MCAS of task `t` ends: its locks are free and its places in queues given up. -/
def State.mcasEnd (s : State) (t : Nat) (r : McasRec) : State :=
  ((s.unlockLines (r.lines.take r.held)).unqueue (.mcas t)).updTask t fun x => { x with mcas := none }

/-- A cause found with the locks held: it is precise at the MCAS. -/
def State.mcasTrap (s : State) (t : Nat) (r : McasRec) (tr : Trap) : State :=
  let x := s.task t
  let s1 := s.mcasEnd t r
  let b := s1.begin t x.pc r.next x.pc false
  b.takeTrap b tr false 0x341

/-- The OBS fields of an event that has taken place are written, then the status, and the bundle completes. -/
def State.mcasFinish (s : State) (t : Nat) (r : McasRec) : State :=
  let x := s.task t
  let b := s.begin t x.pc r.next x.pc false
  if !b.obsFree r then s.queueGroup (r.obsGroup b.myClus x.party)
  else
    match ((b.putGroup (r.obsGroup b.myClus x.party)).mcasEnd t r).writeDst r.dst (BitVec.ofNat 64 ((r.seen.map (·.1)).getD 0)) with
    | .error _ => s
    | .ok s2 =>
      let s3 := match x.gang with
        | some g => if r.uni then s2.uniDone (clusOf x.tile) g x.unum [r.dst] else s2
        | none => s2
      s3.commitBundle t x r.next []

/-- The commit: the event takes place, the OBS fields are written, and the locks are released (07 R179 steps 4 to 7). Where a line
of the OBS fields is not free, the locks are released first, so that no two MCASs wait on each other (assumption 99). -/
def State.mcasCommit (s : State) (t : Nat) (r : McasRec) : State :=
  let x := s.task t
  let b := s.begin t x.pc r.next x.pc false
  if !b.witRoom r then s
  else
    match b.mcasEvent r with
    | .error tr => s.mcasTrap t r tr
    | .ok (st, olds, s1) =>
      let r1 := { r with held := 0, lines := [], seen := some (st, olds) }
      ((s1.unlockLines r.lines).updTask t fun y => { y with mcas := some r1 }).mcasFinish t r1

/-- The engine has come to a line that it cannot lock: the cause is precise at the MCAS. -/
def State.mcasLineBad (s : State) (t : Nat) (r : McasRec) (l cause : Nat) : State :=
  s.mcasTrap t r { cause := cause, addr := ((r.entries.find? fun x => x.pa / 128 == l).map (·.va)).getD 0, w := true }

/-- The engine takes the lock of line `l`, and queues for the next or commits. -/
def State.mcasLock (s : State) (t : Nat) (r : McasRec) (l : Nat) : State :=
  let r1 := { r with held := r.held + 1 }
  let s1 := ((s.updDir l fun e => { e.far with st := .l t }).unqueue (.mcas t)).updTask t fun x => { x with mcas := some r1 }
  match r1.lines[r1.held]? with
  | none => s1.mcasCommit t r1
  | some n => s1.queueAt n (.mcas t)

/-- MCAS_LOCK_GRANT: the engine of task `t` takes its next lock when it is first in the line's queue; the last lock
begins the commit. -/
def State.mcasGrant (s : State) (t : Nat) : State :=
  match (s.task t).mcas with
  | none => s
  | some r =>
    if r.seen.isSome then s.mcasFinish t r
    else
      match r.lines[r.held]? with
      | none => s.mcasCommit t r
      | some l =>
        if s.folding (l * 128) then s
        else if s.lost.contains (homeDie (l * 128)) then s.mcasLineBad t r l cHomeLost
        else if (s.dirEnt l).pinnedBy.isSome then s.mcasLineBad t r l cPinned
        else if s.lockable t l then s.mcasLock t r l
        else s

end Sys2Proof.Machine
end

