-- ==== Sys2Proof/Machine/VecOps.lean ====
section
/-! DEFINITION. Operands and elements of the V-stream (08 R187-R193), and its bound streams (08 R207-R210). -/

namespace Sys2Proof.Machine

open Sys2Proof

def cStreamBind : Nat := 0x13
def cStreamDesc : Nat := 0x14
def cStreamEnd : Nat := 0x15

/-! Elements (01 R20, 08 R191, R193). -/

/-- Replaces element `e`; a 6-bit one clears bits [1023:768] (08 R191). -/
def setEl (v : VReg) (w e code : Nat) : VReg :=
  let m : VReg := (BitVec.ofNat 1024 (2 ^ w - 1)) <<< (w * e)
  let x := (v &&& ~~~m) ||| ((BitVec.ofNat 1024 (code % 2 ^ w)) <<< (w * e))
  if w = 6 then x &&& BitVec.ofNat 1024 (2 ^ 768 - 1) else x

/-- put(e, code) with the code and flags that `g` gives for an active element. -/
def putEl (p : KReg) (zm : Bool) (w : Nat) (g : Nat → Nat × Flags) (acc : VReg × Flags) (e : Nat) : VReg × Flags :=
  if elActive p w e then (setEl acc.1 w e (g e).1, acc.2 ||| (g e).2)
  else if zm then (setEl acc.1 w e 0, acc.2)
  else acc

def putEls (p : KReg) (zm : Bool) (w : Nat) (es : List Nat) (g : Nat → Nat × Flags) (old : VReg) : VReg × Flags :=
  es.foldl (putEl p zm w g) (old, 0)

/-! Bound streams (08 R207-R210). -/

/-- The address of group `q` (08 R207). -/
def Gen.groupAddr (g : Gen) (q : Nat) : Word :=
  let e := fun (i : Nat) => (g.ext.toList.getD i 1).toNat
  let st := fun (i : Nat) => (g.str.toList.getD i 0).signExtend 64
  let i1 := q / e 0
  let i2 := i1 / e 1
  let i3 := i2 / e 2
  let k := fun (n i : Nat) => BitVec.ofNat 64 (n % e i) * st i
  g.base + k q 0 + k i1 1 + k i2 2 + k i3 3

/-- T, the number of groups. -/
def Gen.total (g : Gen) : Nat := g.ext.toList.foldl (fun n x => n * x.toNat) 1

/-- Reads the 128 bytes of a group by task `who`. A failure is held with the group's address (08 R209). -/
def State.readGroup (s : State) (who : Who) (a : Word) : Except Chk (VReg × State) :=
  if highBits a then .error (.trap { cause := cAddress, addr := a })
  else
    match s.readRange who a.toNat 128 with
    | .ok (bs, s1) => .ok (BitVec.ofNat 1024 (bytesNum bs), s1)
    | .error c => .error (match c with
        | .trap t => .trap { t with addr := a }
        | c => c)

/-- The generator bound to v`n`, if any. -/
def Task.boundGen (t : Task) (n : BitVec 5) : Option (Fin 8 × Gen) :=
  if n.toNat < 24 then none
  else (List.finRange 8).findSome? fun i =>
    let g := t.gens[i]
    if g.bound && g.vreg.toNat + 24 == n.toNat then some (i, g) else none

def Task.setGen (t : Task) (i : Fin 8) (g : Gen) : Task := { t with gens := t.gens.set i g }

/-- Pops a group of an input stream: one read ahead, or one read now (08 R209, R210). -/
def State.popGroup (s : State) (i : Fin 8) (g : Gen) : Except Stop (VReg × State) :=
  if !(g.pos.toNat < g.total) then .error (trapOf cStreamEnd)
  else
    match g.fifo with
    | x :: r =>
      match x.bad with
      | some (cause, info, a) =>
        .error (.trap { cause := cause, addr := a, pw := info % 2 == 1, level := info / 2 })
      | none => .ok (x.data, s.upd fun t => t.setGen i { g with fifo := r, pos := g.pos + 1, last := some x.data })
    | [] =>
      let a := g.groupAddr g.pos.toNat
      if s.wheelWait { lo := a.toNat, n := 128, wr := false } then .error .stall
      else
        match s.readGroup s.whoMe a with
        | .error c => .error c.stop
        | .ok (x, s1) => .ok (x, s1.upd fun t => t.setGen i { g with pos := g.pos + 1, last := some x })

/-- The checks of a write of a group. Its accesses take their place among those of its words now (11 R300); its bytes go to the
physical ranges that the checks give. -/
def State.claimPiece (w : Who) (va : Nat) (bs : List Byte) (acc : List (Nat × List Byte) × State) (p : Nat × Nat) :
    Except Chk (List (Nat × List Byte) × State) :=
  let a := engAcc p.1 p.2 true
  match acc.2.check w a with
  | .ok pa t => .ok (acc.1 ++ [(pa, (bs.drop (p.1 - va)).take p.2)], acc.2.note w a pa t)
  | c => .error c

def State.claimGroup (s : State) (w : Who) (va : Nat) (bs : List Byte) : Except Chk (OutGroup × State) :=
  ((pieces va bs.length).foldlM (State.claimPiece w va bs) ([], s)).map fun r =>
    let (id, s1) := r.2.newId
    ({ clus := clusOf w.tile, who := .group id, data := r.1 }, s1)

/-- Pushes a group to an output stream: it is checked now and written after the instruction (08 R209, R210), at once
where the units act in the same turn. -/
def State.pushGroup (s : State) (i : Fin 8) (g : Gen) (x : VReg) : Eff :=
  if !(g.pos.toNat < g.total) then .error (trapOf cStreamEnd 0 true)
  else
    let a := g.groupAddr g.pos.toNat
    if highBits a then .error (trapOf cAddress a true)
    else if s.wheelWait { lo := a.toNat, n := 128, wr := true } then .error .stall
    else
      match s.claimGroup s.whoMe a.toNat (natBytes x.toNat 128) with
      | .error c => .error c.stop
      | .ok (o, s1) =>
        let moved := fun (out : List OutGroup) (st : State) =>
          st.upd fun t => t.setGen i { g with pos := g.pos + 1, last := some x, out := out }
        .ok (if s.cx.now && g.out.isEmpty && s1.groupFree o then moved [] (s1.putGroup o) else moved (g.out ++ [o]) s1)

/-! Operands (08 R187, R188). -/

/-- The number of a v register in the current pass of a REP (08 R212). -/
def State.vnum (s : State) (n : BitVec 5) : BitVec 5 :=
  if n.toNat < 24 then BitVec.ofNat 5 ((n.toNat + s.cx.rot) % 24) else n

/-- A source of class Vr. -/
def State.readV (s : State) : Reg → Except Stop (VReg × State)
  | .v n =>
    match s.me.boundGen n with
    | none => .ok (s.me.vreg (s.vnum n), s)
    | some (i, g) => if g.dir then .error (trapOf cStreamBind) else s.popGroup i g
  | _ => .ok (0, s)

/-- A source of class Sc: the s value of the issue, or a q entry. -/
def State.readSc (s : State) : Reg → Except Stop (Word × State)
  | .q n => s.popQ n
  | _ => .ok (s.cx.scal, s)

/-- What an inactive element of the destination keeps; for an output stream the group pushed before (08 R209). -/
def State.oldV (s : State) : Reg → VReg
  | .v n =>
    match s.me.boundGen n with
    | none => s.me.vreg (s.vnum n)
    | some (_, g) => g.last.getD 0
  | _ => 0

/-- Writes a destination of class Vr. -/
def State.writeV (s : State) (r : Reg) (x : VReg) : Eff :=
  match r with
  | .v n =>
    match s.me.boundGen n with
    | none => .ok (s.upd fun t => t.setV (s.vnum n) x)
    | some (i, g) => if g.dir then s.pushGroup i g x else .error (trapOf cStreamBind)
  | _ => .ok s

def State.kSrc (s : State) : Reg → KReg
  | .k n => s.me.kreg n
  | _ => 0

def State.writeK (s : State) (r : Reg) (x : KReg) : State :=
  match r with
  | .k n => s.upd fun t => t.setK n x
  | _ => s

/-- Pushes a result of class Qo. -/
def State.writeQ (s : State) (r : Reg) (x : Word) : Eff :=
  match r with
  | .q n => s.pushQ n x
  | _ => .ok s

/-- bsrc: the element function of operand b for `w`-bit elements. -/
def State.readB (s : State) (f : VecF) (w : Nat) : Except Stop ((Nat → Nat) × State) := do
  if f.sb then
    let (x, s1) ← s.readSc f.b
    return (fun _ => x.toNat % 2 ^ w, s1)
  else
    let (v, s1) ← s.readV f.b
    return (fun e => vecEl v w e, s1)

/-- dith(e) (08 R193): by register element, or by memory element where d is bound to an output stream. -/
def State.dith (s : State) (f : VecF) (w e : Nat) : Nat :=
  let reg := (f.imm.toNat % 4096 + e) % 4096
  match f.d with
  | .v n =>
    match s.me.boundGen n with
    | some (_, g) => if g.dir then memDither (8 * (g.groupAddr g.pos.toNat).toNat + w * e) w else reg
    | none => reg
  | _ => reg

/-- Writes the elements `es` of the destination with what `g` gives, and raises their flags. -/
def State.emitEls (s : State) (f : VecF) (w : Nat) (es : List Nat) (g : Nat → Nat × Flags) : Eff :=
  let r := putEls (s.pred f.hd) f.zm w es g (s.oldV f.d)
  (s.writeV f.d r.1).map fun s1 => s1.raise r.2

/-- Writes every element of a format. -/
def State.emit' (s : State) (f : VecF) (c : Nat) (g : Nat → Nat × Flags) : Eff :=
  s.emitEls f (fmtWidth c) (List.range (fmtCap c)) g

/-- The clocks of the queued instructions that pop v`n`, in order. -/
def Task.poppers (t : Task) (n : Nat) : List Clock :=
  t.vq.filterMap fun e => e.word.bind fun w =>
    if (wordSrcs w).any fun r => match r with
      | .v m => m.toNat == n
      | _ => false then some e.clk else none

/-- What happens before the read of a group of the stream bound to v`n`, when `k` groups have been read ahead: its
instruction acts as at its issue (11 R288). -/
def Task.aheadClk (t : Task) (n k : Nat) : Clock :=
  let l := t.poppers n
  ((l[k]?).or l.getLast?).getD t.clk

/-- STREAM_GROUP_READ (08 R210): the next group of an input stream that has not been read is read ahead. -/
def State.groupAhead (s : State) (t i : Nat) : State :=
  match s.task? t with
  | none => s
  | some x =>
    if h : i < 8 then
      let g := x.gens[i]
      let q := g.pos.toNat + g.fifo.length
      if !x.live || !g.bound || g.dir || !(q < g.total) then s
      else
        let a := g.groupAddr q
        let who : Who := { dom := x.dom, tile := x.tile, party := x.party, member := s.memberOf x
                           clk := x.aheadClk (24 + g.vreg.toNat) g.fifo.length }
        let add := fun (st : State) (e : Group) => st.updTask t fun y => y.setGen ⟨i, h⟩ { g with fifo := g.fifo ++ [e] }
        if ({ s with cur := t } : State).wheelWait { lo := a.toNat, n := 128, wr := false } then s
        else
          match s.readGroup who a with
          | .ok (v, s1) => add s1 { addr := a, data := v, bad := none }
          | .error (.trap tr) =>
            add s { addr := a, data := 0, bad := some (tr.cause, (if tr.pw then 1 else 0) + 2 * tr.level, a) }
          | .error _ => s
    else s

/-- STREAM_GROUP_WRITE (08 R210): the oldest group pushed to an output stream is performed; at a line that an MCAS holds it
waits in turn (07 R179). -/
def State.groupOut (s : State) (t i : Nat) : State :=
  match s.task? t with
  | none => s
  | some x =>
    if h : i < 8 then
      let g := x.gens[i]
      match g.out with
      | [] => s
      | o :: r =>
        if s.groupFree o then (s.putGroup o).updTask t fun y => y.setGen ⟨i, h⟩ { g with out := r } else s.queueGroup o
    else s

end Sys2Proof.Machine
end

