-- ==== Sys2Proof/Machine/Events.lean ====
section
/-! DEFINITION. Events of a task's own machinery, of dispatch, of the units and of other devices, and register writes made
outside a bundle. An event whose conditions do not hold leaves the state as it is (assumption 1). -/

namespace Sys2Proof.Machine

open Sys2Proof

abbrev Out := Host.Outcome State Fault Refusal

/-! A task's own machinery. -/

/-- U_GROUP_COMPLETE (04 R101). -/
def execUGroupComplete (clus gang n : Nat) (s : State) : Out := (s.uniPost clus gang n).event

/-- ASYNC_CAUSE_TAKEN (21 R400). -/
def execAsyncCauseTaken (task : Nat) (s : State) : Out := (s.takeAsync task).event

/-- BREAKPOINT (21 R414). -/
def execBreakpoint (task : Nat) (s : State) : Out := (s.breakTrap task).event

/-- SINGLE_STEP_TRAP (21 R415). -/
def execSingleStepTrap (task : Nat) (s : State) : Out := (s.stepTrap task).event

/-- FETCH_PARITY_REFETCH (04 R89): a mismatch in the line of the task's next bundle. -/
def State.parityRefetch (s : State) (t : Nat) : State :=
  match s.task? t with
  | none => s
  | some x =>
    if !x.live then s
    else
      match s.fetchLine t x.pc with
      | .line _ s1 => if (s1.clus (clusOf x.tile)).softErr = (s.clus (clusOf x.tile)).softErr then s else s1
      | .trap tr => if tr.cause = cFetch then s.tryCause t tr 0 else s
      | _ => s

def execFetchParityRefetch (task : Nat) (s : State) : Out := (s.parityRefetch task).event

/-- FRAME_LINE_FETCH (01 R29). -/
def execFrameLineFetch (task line : Nat) (s : State) : Out := (s.frameLine task line).event

/-- STREAM_GROUP_READ (08 R210). -/
def execStreamGroupRead (task gen : Nat) (s : State) : Out := (s.groupAhead task gen).event

/-- STREAM_GROUP_WRITE (08 R210). -/
def execStreamGroupWrite (task gen : Nat) (s : State) : Out := (s.groupOut task gen).event

/-! Dispatch, gangs, the wire unit and timed waits. -/

/-- RECORD_DISPATCH (02 R52). -/
def execRecordDispatch (tile ctx : Nat) (s : State) : Out := (s.dispatch tile ctx).event

/-- QUEUE_AGING (02 R53). -/
def execQueueAging (die prio : Nat) (s : State) : Out := (s.ageQueue die prio).event

/-- JOIN_HELD_PUSH (02 R49). -/
def execJoinHeldPush (die : Nat) (s : State) : Out := (s.joinHeldPush die).event

/-- GANG_WAKE (02 R60). -/
def execGangWake (gang tile : Nat) (s : State) : Out := (s.gangWake gang tile).event

/-- GANG_START (02 R60). -/
def execGangStart (gang : Nat) (s : State) : Out := (s.gangStart gang).event

/-- WIRE_REQUEST_SERVE (02 R71). -/
def execWireRequestServe (die idx : Nat) (s : State) : Out := (s.serveWire die idx).event

/-- WAIT_DEADLINE (02 R64). -/
def execWaitDeadline (task : Nat) (s : State) : Out := (s.waitDeadline task).event

/-- SLEEPT_EXPIRY (10 R258). -/
def execSleeptExpiry (task : Nat) (s : State) : Out := (s.sleeptExpiry task).event

/-! The Wheel, the damper and the pug engine. -/

/-- WHEEL_COMMAND_START (14 R343). -/
def execWheelCommandStart (clus : Nat) (s : State) : Out := (s.wheelStart clus).event

/-- WHEEL_COMMAND_COMPLETE (09 R222). -/
def execWheelCommandComplete (clus : Nat) (array : Bool) (s : State) : Out := (s.wheelComplete clus array).event

/-- DAMPER_GRANT (14 R344). -/
def execDamperGrant (clus : Nat) (s : State) : Out := (s.damperGrant clus).event

/-- COPY_START (10 R253). -/
def execCopyStart (clus id : Nat) (s : State) : Out := (s.copyStart clus id).event

/-- COPY_COMPLETE (10 R256). -/
def execCopyComplete (clus id : Nat) (s : State) : Out := (s.copyComplete clus id).event

/-- LATE_PROMISE_EXPIRY (10 R256). -/
def execLatePromiseExpiry (clus id : Nat) (s : State) : Out := (s.lateExpiry clus id).event

/-- CPYQF_FENCE_COMPLETE (10 R257). -/
def execCpyqfFenceComplete (clus id : Nat) (s : State) : Out := (s.fenceComplete clus id).event

/-- PENDING_BYTE_DECREMENT (10 R255). -/
def execPendingByteDecrement (idx : Nat) (s : State) : Out := (s.pendingBytes idx).event

/-! Cones, messages, I/O and MCAS. -/

/-- REMOTE_ARRIVAL (10 R264). -/
def execRemoteArrival (idx : Nat) (s : State) : Out := (s.arrivalDone idx false).event

/-- REMOTE_SIGNAL (10 R264). -/
def execRemoteSignal (idx : Nat) (s : State) : Out := (s.arrivalDone idx true).event

/-- MESSAGE_DELIVERY (10 R272). -/
def execMessageDelivery (id : Nat) (s : State) : Out := (s.messageDelivery id).event

/-- MESSAGE_ACK (10 R271). -/
def execMessageAck (id : Nat) (s : State) : Out := (s.messageAck id).event

/-- IOLD_COMPLETION (07 R185). -/
def execIoldCompletion (task status : Nat) (data : Word) (s : State) : Out := (s.ioComplete task status data).event

/-- IOLD_TIMEOUT (07 R186). -/
def execIoldTimeout (task : Nat) (s : State) : Out := (s.ioTimeout task).event

/-- MCAS_LOCK_GRANT (07 R179). -/
def execMcasLockGrant (task : Nat) (s : State) : Out := (s.mcasGrant task).event

/-! The fabric and other devices. -/

/-- ROUTER_CYCLE (20 R381). -/
def execRouterCycle (router : Nat) (s : State) : Out := (s.routerCycle router).event

/-- FLIT_ARRIVAL (20 R382). -/
def execFlitArrival (idx : Nat) (s : State) : Out := (s.flitArrival idx).event

/-- THROTTLE_WINDOW (20 R384). -/
def execThrottleWindow (clus : Nat) (s : State) : Out := (s.throttleWindow clus).event

/-- UET_PACKET_RECEIVE (20 R393). -/
def execUetPacketReceive (p : Packet) (s : State) : Out := (s.packetReceive p).event

/-- UET_ACK_RECEIVE (20 R393). -/
def execUetAckReceive (num : Nat) (answer : Answer) (s : State) : Out := (s.ackReceive num answer).event

/-- UET_RETRANSMIT (20 R393). -/
def execUetRetransmit (num : Nat) (s : State) : Out := (s.retransmit num).event

/-! Compacts. -/

/-- SIGNING_COMPLETE (13 R321). -/
def execSigningComplete (comp : Nat) (s : State) : Out := (s.signingComplete comp).event

/-- DEVICE_ARRIVAL_REPORT (13 R326). -/
def execDeviceArrivalReport (comp dev : Nat) (s : State) : Out := (s.deviceArrival comp dev).event

/-- PLAN_WRITE_PERFORMED (13 R328). -/
def execPlanWritePerformed (comp : Nat) (s : State) : Out := (s.planWrite comp).event

/-- BOUNDARY_BEGIN (13 R329). -/
def execBoundaryBegin (comp : Nat) (s : State) : Out := (s.boundaryBegin comp).event

/-- MEMBER_RELEASE (13 R329). -/
def execMemberRelease (comp : Nat) (s : State) : Out := (s.memberRelease comp).event

/-- DISSOLVING_COMPLETE (13 R338). -/
def execDissolvingComplete (comp : Nat) (s : State) : Out := (s.dissolvingComplete comp).event

/-- ABORT_TOKEN (13 R336). -/
def execAbortToken (comp reason : Nat) (s : State) : Out := (s.abortCompact comp reason noTile (withFatal 0)).event

/-! Register writes as events: of the current task, where the register is a task's, a tile's, a cluster's or a domain's. -/

/-- DEVCFG_WRITE (01 R26). -/
def execDevcfgWrite (v : Word) (s : State) : Out := (s.devcfgWrite v).event

/-- DQRING_WRITE (02 R434). -/
def execDqringWrite (die prio : Nat) (v : Word) (s : State) : Out := (s.dqringWrite die prio v).event

/-- SCOPE_WRITE (01 R25): a refused descriptor leaves SCOPEn as it is. -/
def execScopeWrite (n : Nat) (v : Word) (s : State) : Out :=
  (match s.scopeSet s.regDom n v with
   | .ok (some u) => u
   | _ => s).event

/-- FPFLAGS_WRITE (05 R123): after the task's earlier V-class instructions. -/
def execFpflagsWrite (v : Word) (s : State) : Out := (if s.me.vq.isEmpty then s.fpflagsWrite v else s).event

/-- WHEELWT_WRITE (14 R343). -/
def execWheelwtWrite (v : Word) (s : State) : Out := (s.wheelwtWrite v).event

/-- WHEEL_FOOTPRINT_WRITE (09 R224) of WFSAG, WFBAT, WFRIB or WFKN (`reg` 0 to 3): a refused footprint, and one that must
wait, changes nothing. -/
def execWheelFootprintWrite (reg : Nat) (v : Word) (s : State) : Out :=
  match s.footprintWrite (0x200 + reg) v with
  | .ok s1 => s1.event
  | .error _ => s.event

/-- WQSTAT_DISCARD (09 R223). -/
def execWqstatDiscard (s : State) : Out := (s.wheelDiscard s.cur).event

/-- CFSTAT_ABANDON (21 R413). -/
def execCfstatAbandon (s : State) : Out := (s.cfstatWrite 0x8000_0000#64).event

/-- STATUS_WRITE (21 R397). -/
def execStatusWrite (v : Word) (s : State) : Out := (s.statusWrite v).event

/-- UETMAP_WRITE (20 R393). -/
def execUetmapWrite (v : Word) (s : State) : Out :=
  match s.uetmapWrite v with
  | .ok s1 => s1.event
  | .error _ => s.event

/-- A register without a row of its own stores its writable fields (00 R7). -/
def State.plainWrite (s : State) (r : PlainReg) (v : Word) : State :=
  match r with
  | .tvbase d => s.tvbaseWrite d v
  | .ptroot d => s.ptrootWrite d v
  | .hchain d i => s.hchainWrite d i v
  | .bkpt d i => s.bkptWrite d i v
  | .domsel => s.domselWrite v
  | .ipc => s.ipcWrite v
  | .vpc => s.vpcWrite v
  | .btctl => s.btctlWrite v
  | .fabthr => s.fabthrWrite v
  | .cohctl => s.cohctlWrite v
  | .uetcfg p => s.uetcfgWrite p v
  | .uetrto => s.uetrtoWrite v
  | .uetretry => s.uetretryWrite v
  | .dqage d p => s.dqageWrite d p v
  | .dampctl d => s.dampctlWrite d v
  | .xdelay d => s.xdelayWrite d v
  | .bootaddr => s.bootaddrWrite v
  | .mbtask n => s.mbtaskWrite n v

/-- REGISTER_WRITE (00 R7). -/
def execRegisterWrite (r : PlainReg) (v : Word) (s : State) : Out := (s.plainWrite r v).event

end Sys2Proof.Machine
end

