-- ==== Sys2Proof/Machine/Auto.lean ====
section
/-! DEFINITION. The turns of a step (assumption 1): what is under way goes on, the order of turns within a ck, the arbiters'
grants, and what happens when the agenda names no turn: a task whose turn changes something issues, round robin; an event that
can happen happens; otherwise one ck passes. -/

namespace Sys2Proof.Machine

open Sys2Proof

/-- Events of the clusters' units. -/
def State.unitEvents (s : State) : List (Unit → State) :=
  s.cluss.flatMap fun p =>
    p.2.ugroups.map (fun u (_ : Unit) => s.uniPost p.1 u.gang u.n)
      ++ [fun (_ : Unit) => s.wheelComplete p.1 true, fun (_ : Unit) => s.wheelComplete p.1 false, fun (_ : Unit) => s.damperGrant p.1,
          fun (_ : Unit) => s.wheelStart p.1]
      ++ (if p.2.win ≠ s.window then [fun (_ : Unit) => s.throttleWindow p.1] else [])
      ++ p.2.copies.flatMap fun c =>
          [fun (_ : Unit) => s.copyComplete p.1 c.id, fun (_ : Unit) => s.copyStart p.1 c.id, fun (_ : Unit) => s.lateExpiry p.1 c.id,
           fun (_ : Unit) => s.fenceComplete p.1 c.id]

/-- Events that concern a task. -/
def State.taskEvents (s : State) : List (Unit → State) :=
  s.tasks.flatMap fun p =>
    [fun (_ : Unit) => s.waitDeadline p.1, fun (_ : Unit) => s.sleeptExpiry p.1, fun (_ : Unit) => s.mcasGrant p.1, fun (_ : Unit) => s.ioTimeout p.1]
      ++ (List.range 8).map fun g (_ : Unit) => s.groupOut p.1 g

/-- Events of what is in flight. -/
def State.flightEvents (s : State) : List (Unit → State) :=
  (List.range s.flits.length).map (fun i (_ : Unit) => s.flitArrival i)
    ++ [fun (_ : Unit) => s.pendingBytes 0, fun (_ : Unit) => s.arrivalDone 0 false, fun (_ : Unit) => s.arrivalDone 0 true]
    ++ s.sends.flatMap (fun m => [fun (_ : Unit) => s.messageDelivery m.id, fun (_ : Unit) => s.messageAck m.id])
    ++ s.uetOut.map (fun u (_ : Unit) => s.retransmit u.pkt.num)
    ++ (((s.flits ++ s.injq).map (·.router)).eraseDups).map fun r (_ : Unit) => s.routerCycle r

/-- The first tile with an idle context among those that a record names. -/
def State.openTile (s : State) (r : DRec) : Option Nat :=
  ((s.recordClus r.ctl).flatMap fun c => (List.range 8).map fun t => 8 * c + t).find? fun t =>
    s.recordPlaces r.ctl t && (s.freeCtx t).isSome

/-- The tiles to which a queued record, a pending gang or a resuming task can go. -/
def State.workTiles (s : State) : List Nat :=
  ((s.tasks.filter fun p => p.2.run == .resuming).map (·.2.tile)
    ++ (s.gangs.filter fun g => g.2.pending).flatMap (fun g => s.needTiles g.2)
    ++ s.dies.flatMap fun d => d.2.queues.flatMap fun q => q.2.filterMap s.openTile).eraseDups

/-- Events of dispatch, gangs and the wire units. -/
def State.dispatchEvents (s : State) : List (Unit → State) :=
  (s.dies.flatMap fun d =>
    [fun (_ : Unit) => s.joinHeldPush d.1, fun (_ : Unit) => s.serveWire d.1 0] ++ (List.range 15).map fun p (_ : Unit) => s.ageQueue d.1 p)
  ++ (s.gangs.flatMap fun p => [fun (_ : Unit) => s.gangStart p.1] ++ p.2.tiles.map fun t (_ : Unit) => s.gangWake p.1 t)
  ++ s.workTiles.flatMap fun t => (List.range 4).map fun i (_ : Unit) => s.dispatch t i

/-- Events of the compacts, of folding and of boot. -/
def State.deviceEvents (s : State) : List (Unit → State) :=
  s.compacts.flatMap (fun c =>
    [fun (_ : Unit) => s.signingComplete c.num, fun (_ : Unit) => s.deviceArrival c.num s.devnum.toNat, fun (_ : Unit) => s.planWrite c.num,
     fun (_ : Unit) => s.boundaryBegin c.num, fun (_ : Unit) => s.memberRelease c.num, fun (_ : Unit) => s.dissolvingComplete c.num])
  ++ (if s.foldstat = 0 then [] else (List.range 8).map fun d (_ : Unit) => s.foldComplete d)
  ++ if s.bootstat = 1 then [fun (_ : Unit) => s.bootDone] else []

/-- The first outcome that changes the state. -/
def firstChange (s : State) : List (Unit → Host.Outcome State Fault Refusal) → Option (Host.Outcome State Fault Refusal)
  | [] => none
  | f :: r =>
    match f () with
    | .next t => if sameState t s then firstChange s r else some (.next t)
    | o => some o

/-- The tiles that hold a task, those after the current task's tile first. -/
def State.tileOrder (s : State) : List Nat :=
  let all := (((s.tasks.filter fun p => p.2.live).map (·.2.tile)).mergeSort (· ≤ ·)).eraseDups
  let now := (s.task s.cur).tile
  all.filter (fun t => decide (now < t)) ++ all.filter fun t => decide (t ≤ now)

/-! What is under way. -/

/-- The reads parked for a task that is about to take an asynchronous cause are cancelled (13 R331). -/
def State.cancelParked (s : State) : State :=
  { s with parked := s.parked.filter fun p => match p.reader with
      | .task t _ => (s.task t).nextPend.isNone
      | .fetch t => (s.task t).nextPend.isNone
      | _ => true }

/-- The firing program is told once when the shadow region is full (11 R301). -/
def State.tellShadow (s : State) : State :=
  match s.shadow with
  | none => s
  | some room =>
    if !s.shadowTold && decide (room ≤ (s.wit.map fun p => p.2.length).foldl (· + ·) 0) then
      ({ s with shadowTold := true } : State).tell .shadowFull
    else s

/-- At the start of a turn, what waits only for the state to allow it goes on. -/
def State.settle (s : State) : State :=
  if s.gangJoins.isEmpty && s.strays.isEmpty && s.compacts.isEmpty && s.parked.isEmpty && s.shadow.isNone
      && s.barWrites.isEmpty && s.barReads.isEmpty && s.inbox.isEmpty
      && !s.gangs.any (fun g => g.2.stopping) then s
  else ((((((s.cancelParked).settleCompacts).settleStrays).settleJoins).settleWrites).settleReads).tellShadow

/-! The order within a ck (02 R46; 04 R101; 05 R123; 10 R263, R272). -/

/-- Past every rank. -/
def lastRank : Nat := 8195

/-- The events whose place in a ck the manual gives: completions of copies and Wheel commands and pending-byte decrements after
every tile, then remote arrivals and signals, then deliveries of messages. -/
def eventRank : Instr → Option Nat
  | .copyComplete .. | .cpyqfFenceComplete .. | .wheelCommandComplete .. | .pendingByteDecrement .. => some 8192
  | .remoteArrival .. | .remoteSignal .. => some 8193
  | .messageDelivery .. => some 8194
  | .uetPacketReceive p =>
    match p.body with
    | .message .. => some 8194
    | .arrival .. | .signal .. => some 8193
    | _ => none
  | _ => none

/-- The place of a turn in its ck: tiles ascending, each with its bundle and then its V-stream; then the events above. A write
of FPFLAGS is one of its task's bundle (05 R123). -/
def State.rankOf (s : State) : Act → Option Nat
  | .issue t _ => some (2 * (s.task t).tile)
  | .vector t => some (2 * (s.task t).tile + 1)
  | .event (.fpflagsWrite _) => some (2 * (s.task s.cur).tile)
  | .event i => eventRank i
  | _ => none

/-- The least place that may follow a turn in its ck. A tile grants one bundle and one V-class instruction in a ck (02 R46). -/
def State.rankAfter (s : State) (a : Act) : Nat :=
  match a with
  | .issue t now => if now then lastRank else 2 * (s.task t).tile + 1
  | .vector t => 2 * (s.task t).tile + 2
  | _ => Nat.max s.ckRank (((s.rankOf a)).getD 0)

/-- The device at the ck of a turn: `dt` ck later, and in the next one where the turn's place in this one has passed. -/
def State.atTurn (s : State) (u : Turn) : State :=
  let late := u.dt == 0 && ((s.rankOf u.act).map fun r => decide (r < s.ckRank)).getD false
  let dt := if late then 1 else u.dt
  let s1 := { s with cycle := s.cycle + BitVec.ofNat 64 dt, ckRank := if dt = 0 then s.ckRank else 0 }
  ({ s1 with ckRank := s1.rankAfter u.act } : State).settle

/-! The arbiters (02 R46). -/

/-- The bundle arbiter grants `t`: no context before it is ready. -/
def State.bundleGranted (s : State) (ex : Exec) (t : Nat) (now : Bool) : Bool :=
  (s.ahead t (s.tile (s.task t).tile).lastBundle).all fun u => unmoved s (s.issueTurn ex u now)

/-- A message of the fabric's other traffic, from source `q` of endpoint `src`. -/
def State.otherTraffic (s : State) (src dest kind q : Nat) (pays : List (BitVec 512)) : State :=
  s.inject src dest kind (s.freeMid src s.fk) 0 q pays

/-- What moves in a turn. A task that its arbiter does not grant does not move. -/
def State.act (ex : Exec) (s : State) : Act → Host.Outcome State Fault Refusal
  | .issue t now => if s.bundleGranted ex t now then s.issueTurn ex t now else .next s
  | .vector t => if s.vectorGranted ex t then s.vectorTurn ex t false else .next s
  | .event i => ex i s
  | .firm op => .next (s.firmAct op)
  | .port peer op => .next (s.portAct peer op)
  | .lateStart clus => .next (s.wheelGo clus true)
  | .traffic src dest kind q pays => .next (s.otherTraffic src dest kind q pays)
  | .link a b up => .next (s.setLink a b up)
  | .ecc e => .next (s.eccError e)
  | .pass => .next s

/-- One turn that the agenda names. -/
def State.turn (ex : Exec) (s : State) (u : Turn) : Host.Outcome State Fault Refusal := (s.atTurn u).act ex u.act

/-- One ck passes, and the first of the agents that changes something moves (assumption 1). -/
def State.autoTurn (ex : Exec) (s0 : State) : Host.Outcome State Fault Refusal :=
  let s := ({ s0 with cycle := s0.cycle + 1, ckRank := lastRank } : State).settle
  let issues := s.tileOrder.flatMap fun l => (s.grantOrder l (s.tile l).lastBundle).map
    fun t (_ : Unit) => s.issueTurn ex t true
  let vectors := s.tileOrder.flatMap fun l => (s.grantOrder l (s.tile l).lastVector).map
    fun t (_ : Unit) => s.vectorTry ex t true
  let tasks := if s.cycle.toNat % 4 < 2 then issues ++ vectors else vectors ++ issues
  let events := (s.unitEvents ++ s.taskEvents ++ s.flightEvents ++ s.dispatchEvents ++ s.deviceEvents).map
    fun f (_ : Unit) => (.next (f ()) : Host.Outcome State Fault Refusal)
  let order := if s.cycle.toNat % 2 = 0 then tasks ++ events else events ++ tasks
  (firstChange s order).getD (.next s)

end Sys2Proof.Machine
end

