-- ==== Sys2Proof/Machine/Scalar.lean ====
section
/-! DEFINITION. The scalar family: arithmetic, logic, counting, selection, addresses, bit fields and moves (06
R142-R152). Each instruction has its function of the operands, and its meaning. -/

namespace Sys2Proof.Machine

open Sys2Proof

/-! Arithmetic (06 R143). -/

def addR (ty : BitVec 3) (a b : Word) : Word := tfit (ival a ty + ival b ty) ty
def subR (ty : BitVec 3) (a b : Word) : Word := tfit (ival a ty - ival b ty) ty
def mulR (ty : BitVec 3) (a b : Word) : Word := tfit (ival a ty * ival b ty) ty
def mulhR (ty : BitVec 3) (a b : Word) : Word := tfit (ival a ty * ival b ty / 2 ^ tyW ty) ty
def madR (ty : BitVec 3) (a b c : Word) : Word := tfit (ival a ty * ival b ty + ival c ty) ty
def divR (ty : BitVec 3) (a b : Word) : Word :=
  tfit (if ival b ty = 0 then -1 else Int.tdiv (ival a ty) (ival b ty)) ty
def remR (ty : BitVec 3) (a b : Word) : Word :=
  tfit (if ival b ty = 0 then ival a ty else ival a ty - ival b ty * Int.tdiv (ival a ty) (ival b ty)) ty
def minR (ty : BitVec 3) (a b : Word) : Word := tfit (Min.min (ival a ty) (ival b ty)) ty
def maxR (ty : BitVec 3) (a b : Word) : Word := tfit (Max.max (ival a ty) (ival b ty)) ty

/-! Logic and shifts (06 R145). -/

/-- The pattern of a source in the type's width. -/
def pat (ty : BitVec 3) (x : Word) : Nat := x.toNat % 2 ^ tyW ty

/-- A pattern as the result of the type. -/
def patR (ty : BitVec 3) (r : Nat) : Word := tfit (r : Int) ty

/-- The shift count, from the full 64-bit operand. -/
def shCount (ty : BitVec 3) (b : Word) : Nat := b.toNat % tyW ty

def andR (ty : BitVec 3) (a b : Word) : Word := patR ty (Nat.land (pat ty a) (pat ty b))
def orR (ty : BitVec 3) (a b : Word) : Word := patR ty (Nat.lor (pat ty a) (pat ty b))
def xorR (ty : BitVec 3) (a b : Word) : Word := patR ty (Nat.xor (pat ty a) (pat ty b))
def andnR (ty : BitVec 3) (a b : Word) : Word := patR ty (Nat.land (pat ty a) (2 ^ tyW ty - 1 - pat ty b))
def ornR (ty : BitVec 3) (a b : Word) : Word := patR ty (Nat.lor (pat ty a) (2 ^ tyW ty - 1 - pat ty b))
def shlR (ty : BitVec 3) (a b : Word) : Word := patR ty (pat ty a * 2 ^ shCount ty b)
def shrR (ty : BitVec 3) (a b : Word) : Word := patR ty (pat ty a / 2 ^ shCount ty b)
def sarR (ty : BitVec 3) (a b : Word) : Word := tfit (sint (tyW ty) a.toNat / 2 ^ shCount ty b) ty
def rolR (ty : BitVec 3) (a b : Word) : Word :=
  patR ty ((pat ty a * 2 ^ shCount ty b + pat ty a / 2 ^ (tyW ty - shCount ty b)) % 2 ^ tyW ty)
def rorR (ty : BitVec 3) (a b : Word) : Word :=
  patR ty ((pat ty a / 2 ^ shCount ty b + pat ty a * 2 ^ (tyW ty - shCount ty b)) % 2 ^ tyW ty)

/-! Counting (06 R147). -/

/-- Zero bits above the highest set bit of `x` within `w` bits. -/
def clzN (w x : Nat) : Nat := if x = 0 then w else w - 1 - Nat.log2 x

/-- Zero bits below the lowest set bit of the low `w` bits. -/
def ctzN : Nat → Nat → Nat
  | 0, _ => 0
  | w + 1, x => if x % 2 = 1 then 0 else ctzN w (x / 2) + 1

/-- Set bits among the low `w`. -/
def popN : Nat → Nat → Nat
  | 0, _ => 0
  | w + 1, x => x % 2 + popN w (x / 2)

/-- Bit i moved to bit w − 1 − i. -/
def brevN : Nat → Nat → Nat
  | 0, _ => 0
  | w + 1, x => x % 2 * 2 ^ w + brevN w (x / 2)

def clzR (ty : BitVec 3) (a : Word) : Word := patR ty (clzN (tyW ty) (pat ty a))
def ctzR (ty : BitVec 3) (a : Word) : Word := patR ty (ctzN (tyW ty) (pat ty a))
def popcR (ty : BitVec 3) (a : Word) : Word := patR ty (popN (tyW ty) (pat ty a))
def brevR (ty : BitVec 3) (a : Word) : Word := patR ty (brevN (tyW ty) (pat ty a))
def bswapR (ty : BitVec 3) (a : Word) : Word := patR ty (bytesNum (natBytes (pat ty a) (tyW ty / 8)).reverse)

/-! Comparison, selection, extension (06 R147). -/

/-- The relation of a COND code (04 R99). -/
def condHolds (c : Nat) (x y : Int) : Bool :=
  match c with
  | 0 => x == y
  | 1 => x != y
  | 2 => decide (x < y)
  | 3 => decide (y ≤ x)
  | 4 => decide (x ≤ y)
  | _ => decide (y < x)

def setR (ty : BitVec 3) (c : Nat) (a b : Word) : Word := if condHolds c (ival a ty) (ival b ty) then 1 else 0
def selR (a b c : Word) : Word := if c ≠ 0 then a else b
def extR (ty : BitVec 3) (a : Word) : Word := tfit (ival a ty) ty

/-! Addresses and bit fields (06 R148-R150). -/

def bfPos (v : Word) : Nat := v.toNat % 64
def bfLen (v : Word) : Nat := Nat.min (v.toNat / 256 % 128) 64

def bfxR (ty : BitVec 3) (x v : Word) : Word :=
  if bfLen v = 0 then 0
  else
    let f := x.toNat / 2 ^ bfPos v % 2 ^ bfLen v
    if ty = 3 then sext64 (bfLen v) f else BitVec.ofNat 64 f

def bfiR (x v y : Word) : Word :=
  let pos := bfPos v
  let n := Nat.min (pos + bfLen v) 64 - pos
  let mask := (2 ^ n - 1) * 2 ^ pos
  BitVec.ofNat 64 (x.toNat - Nat.land x.toNat mask + y.toNat % 2 ^ n * 2 ^ pos)

/-- M, N and T of ZORD and ZDEC (06 R150). -/
def zM (f : ScF) : Nat := f.x.toNat / 64
def zN (f : ScF) : Nat := f.x.toNat / 4 % 16
def zT (f : ScF) : Bool := f.x.getLsbD 1

def zordR (m n : Nat) (t : Bool) (i j : Word) : Word :=
  BitVec.ofNat 64 (if t then zorderOffset (j.toNat % 2 ^ m) (i.toNat % 2 ^ n) m n
    else zorderOffset (i.toNat % 2 ^ m) (j.toNat % 2 ^ n) m n)

/-- The levels of a Z-order number: `a` gets `na` bits and `b` gets `nb`, the bit of b first (01 R41). -/
def deinterleave (na nb : Nat) : Nat → Nat → Nat → Nat × Nat
  | 0, _, _ => (0, 0)
  | k + 1, i, p =>
    let b := if i < nb then p % 2 * 2 ^ i else 0
    let p1 := if i < nb then p / 2 else p
    let a := if i < na then p1 % 2 * 2 ^ i else 0
    let p2 := if i < na then p1 / 2 else p1
    let r := deinterleave na nb k (i + 1) p2
    (a + r.1, b + r.2)

/-- The row and column of a Z-order position: the inverse of zorder_offset (01 R41). -/
def zorderPair (p m n : Nat) : Nat × Nat :=
  let r := deinterleave (m - 2) (n - 2) (Nat.max (m - 2) (n - 2)) 0 (p / 16)
  (4 * r.1 + p / 4 % 4, 4 * r.2 + p % 4)

def zdecR (m n : Nat) (t : Bool) (p : Word) : Word :=
  let (row, col) := zorderPair (p.toNat % 2 ^ (m + n)) m n
  BitVec.ofNat 64 (if t then col + row * 2 ^ 32 else row + col * 2 ^ 32)

/-! Meanings. -/

/-- NOP (06 R157). -/
def execNop (f : ScF) (s : State) := s.runSc 0x000 f .ok

/-- ADD (06 R143). -/
def execAdd (f : ScF) (s : State) := s.runSc 0x001 f fun st => st.bin f (addR f.ty)
/-- SUB (06 R143). -/
def execSub (f : ScF) (s : State) := s.runSc 0x002 f fun st => st.bin f (subR f.ty)
/-- MUL (06 R143). -/
def execMul (f : ScF) (s : State) := s.runSc 0x003 f fun st => st.bin f (mulR f.ty)
/-- MULH (06 R143). -/
def execMulh (f : ScF) (s : State) := s.runSc 0x004 f fun st => st.bin f (mulhR f.ty)
/-- MAD (06 R143). -/
def execMad (f : ScF) (s : State) := s.runSc 0x005 f fun st => st.tern f (madR f.ty)
/-- DIV (06 R143). -/
def execDiv (f : ScF) (s : State) := s.runSc 0x006 f fun st => st.bin f (divR f.ty)
/-- REM (06 R143). -/
def execRem (f : ScF) (s : State) := s.runSc 0x007 f fun st => st.bin f (remR f.ty)
/-- MIN (06 R143). -/
def execMin (f : ScF) (s : State) := s.runSc 0x008 f fun st => st.bin f (minR f.ty)
/-- MAX (06 R143). -/
def execMax (f : ScF) (s : State) := s.runSc 0x009 f fun st => st.bin f (maxR f.ty)

/-- AND (06 R145). -/
def execAnd (f : ScF) (s : State) := s.runSc 0x040 f fun st => st.bin f (andR f.ty)
/-- OR (06 R145). -/
def execOr (f : ScF) (s : State) := s.runSc 0x041 f fun st => st.bin f (orR f.ty)
/-- XOR (06 R145). -/
def execXor (f : ScF) (s : State) := s.runSc 0x042 f fun st => st.bin f (xorR f.ty)
/-- ANDN (06 R145). -/
def execAndn (f : ScF) (s : State) := s.runSc 0x043 f fun st => st.bin f (andnR f.ty)
/-- ORN (06 R145). -/
def execOrn (f : ScF) (s : State) := s.runSc 0x044 f fun st => st.bin f (ornR f.ty)
/-- SHL (06 R145). -/
def execShl (f : ScF) (s : State) := s.runSc 0x045 f fun st => st.bin f (shlR f.ty)
/-- SHR (06 R145). -/
def execShr (f : ScF) (s : State) := s.runSc 0x046 f fun st => st.bin f (shrR f.ty)
/-- SAR (06 R145). -/
def execSar (f : ScF) (s : State) := s.runSc 0x047 f fun st => st.bin f (sarR f.ty)
/-- ROL (06 R145). -/
def execRol (f : ScF) (s : State) := s.runSc 0x048 f fun st => st.bin f (rolR f.ty)
/-- ROR (06 R145). -/
def execRor (f : ScF) (s : State) := s.runSc 0x049 f fun st => st.bin f (rorR f.ty)

/-- CLZ (06 R147). -/
def execClz (f : ScF) (s : State) := s.runSc 0x080 f fun st => st.un f (clzR f.ty)
/-- CTZ (06 R147). -/
def execCtz (f : ScF) (s : State) := s.runSc 0x081 f fun st => st.un f (ctzR f.ty)
/-- POPC (06 R147). -/
def execPopc (f : ScF) (s : State) := s.runSc 0x082 f fun st => st.un f (popcR f.ty)
/-- BREV (06 R147). -/
def execBrev (f : ScF) (s : State) := s.runSc 0x083 f fun st => st.un f (brevR f.ty)
/-- BSWAP (06 R147). -/
def execBswap (f : ScF) (s : State) := s.runSc 0x084 f fun st => st.un f (bswapR f.ty)
/-- SET (06 R147). -/
def execSet (f : ScF) (s : State) := s.runSc 0x085 f fun st => st.bin f (setR f.ty f.cond.toNat)
/-- SEL (06 R147). -/
def execSel (f : ScF) (s : State) := s.runSc 0x086 f fun st => st.tern f selR
/-- SEXT (06 R147). -/
def execSext (f : ScF) (s : State) := s.runSc 0x087 f fun st => st.un f (extR f.ty)
/-- ZEXT (06 R147). -/
def execZext (f : ScF) (s : State) := s.runSc 0x088 f fun st => st.un f (extR f.ty)

/-- LEA (06 R148): SH is bits [34:32]. -/
def leaR (f : ScF) (base idx : Word) : Word :=
  base + (idx <<< (f.x.toNat % 8)) + scImmB f

/-- LEA (06 R148). Its imm32 is the displacement, and b is a register. -/
def execLea (f : ScF) (s : State) := s.runSc 0x100 f fun st => do
  let (a, s1) ← st.readSrc f.a
  let (b, s2) ← s1.readSrc f.b
  s2.writeDst f.d (leaR f a b)

/-- BFX (06 R149). -/
def execBfx (f : ScF) (s : State) := s.runSc 0x101 f fun st => st.bin f (bfxR f.ty)
/-- BFI (06 R149). -/
def execBfi (f : ScF) (s : State) := s.runSc 0x102 f fun st => st.tern f bfiR
/-- ZORD (06 R150). -/
def execZord (f : ScF) (s : State) := s.runSc 0x103 f fun st => st.bin f (zordR (zM f) (zN f) (zT f))
/-- ZDEC (06 R150). -/
def execZdec (f : ScF) (s : State) := s.runSc 0x104 f fun st => st.un f (zdecR (zM f) (zN f) (zT f))

/-- HI of MOV, bit [32]. -/
def movHi (f : ScF) : Bool := f.x.getLsbD 0

/-- Bits [63:0] or [127:64] of a k register. -/
def kHalf (k : KReg) (hi : Bool) : Word := if hi then k.extractLsb' 64 64 else k.extractLsb' 0 64

/-- A k register with one half replaced. -/
def setKHalf (k : KReg) (hi : Bool) (v : Word) : KReg :=
  if hi then v ++ k.extractLsb' 0 64 else k.extractLsb' 64 64 ++ v

/-- The effect of MOV (06 R151). -/
def State.mov (s : State) (f : ScF) : Eff :=
  match f.d, f.a with
  | .k d, .k a => .ok (s.upd fun t => t.setK d (t.kreg a))
  | .k d, a => do
    let (v, s1) ← s.readSrc a
    return s1.upd fun t => t.setK d (setKHalf (t.kreg d) (movHi f) v)
  | d, .k a => s.writeDst d (kHalf (s.me.kreg a) (movHi f))
  | d, a => do
    let (v, s1) ← s.readSrc a
    s1.writeDst d v

/-- MOV (06 R151). -/
def execMov (f : ScF) (s : State) := s.runSc 0x140 f fun st => st.mov f

/-- LI (06 R152). -/
def execLi (f : FlF) (s : State) := s.runI 0x141 f.hd [f.d] fun st => st.writeDst f.d f.imm

end Sys2Proof.Machine
end

