-- ==== Sys2Proof/Machine/Control.lean ====
section
/-! DEFINITION. Control transfers, EXIT, YIELD, TRAPI and the defined illegal instruction (06 R153-R157). -/

namespace Sys2Proof.Machine

open Sys2Proof

/-- A transfer takes effect after its bundle; a target with a nonzero bit in [63:55] raises the address fault at the
transferring instruction (06 R153, 04 R95); FAULTADDR is that target (assumption 87). -/
def State.transfer (s : State) (pc : Word) (kind : Nat) : Eff :=
  if highBits pc then .error (trapOf cAddress pc) else .ok { s with cx := { s.cx with target := some (pc, kind) } }

/-- A control instruction. -/
def State.runFb (s : State) (opc : Nat) (f : FbF) (body : State → Word → Eff) : Host.Outcome State Fault Refusal :=
  s.runI opc f.hd [] fun st => body st (fbTarget st.cx.pc f.off f.slot)

/-- BR: the relation `r` of the values of a and b (06 R154). -/
def State.runBr (s : State) (opc : Nat) (f : FbF) (r : Word → Word → Bool) : Host.Outcome State Fault Refusal :=
  s.runFb opc f fun st tgt => do
    let (a, s1) ← st.readSrc f.a
    let (b, s2) ← s1.readSrc f.b
    if r a b then s2.transfer tgt 0 else .ok s2

/-- JMP (06 R154). -/
def execJmp (f : FbF) (s : State) := s.runFb 0x180 f fun st tgt => st.transfer tgt 0

/-- CALL (06 R154): the link is the next PC. -/
def execCall (f : FbF) (s : State) := s.runFb 0x180 f fun st tgt => do
  let s1 ← st.transfer tgt 1
  s1.writeDst f.a s1.cx.next

/-- LOOP (06 R154). -/
def execLoop (f : FbF) (s : State) := s.runFb 0x181 f fun st tgt => do
  let (a, s1) ← st.readSrc f.a
  let s2 ← if a - 1 ≠ 0 then s1.transfer tgt 0 else .ok s1
  s2.writeDst f.a (a - 1)

/-- BR.eq (06 R154). -/
def execBrEq (f : FbF) (s : State) := s.runBr 0x190 f fun a b => a == b
/-- BR.ne (06 R154). -/
def execBrNe (f : FbF) (s : State) := s.runBr 0x192 f fun a b => a != b
/-- BR.lt.z64 (06 R154). -/
def execBrLtZ64 (f : FbF) (s : State) := s.runBr 0x194 f fun a b => a.ult b
/-- BR.lt.i64 (06 R154). -/
def execBrLtI64 (f : FbF) (s : State) := s.runBr 0x195 f fun a b => a.slt b
/-- BR.ge.z64 (06 R154). -/
def execBrGeZ64 (f : FbF) (s : State) := s.runBr 0x196 f fun a b => b.ule a
/-- BR.ge.i64 (06 R154). -/
def execBrGeI64 (f : FbF) (s : State) := s.runBr 0x197 f fun a b => b.sle a
/-- BR.le.z64 (06 R154). -/
def execBrLeZ64 (f : FbF) (s : State) := s.runBr 0x198 f fun a b => a.ule b
/-- BR.le.i64 (06 R154). -/
def execBrLeI64 (f : FbF) (s : State) := s.runBr 0x199 f fun a b => a.sle b
/-- BR.gt.z64 (06 R154). -/
def execBrGtZ64 (f : FbF) (s : State) := s.runBr 0x19A f fun a b => b.ult a
/-- BR.gt.i64 (06 R154). -/
def execBrGtI64 (f : FbF) (s : State) := s.runBr 0x19B f fun a b => b.slt a

/-- JR (06 R155): a is read before the link is written. A JR with a link is traced as a call (assumption 30). -/
def execJr (f : ScF) (s : State) := s.runI 0x1C0 f.hd [] fun st => do
  let (a, s1) ← st.readSrc f.a
  let s2 ← s1.transfer a (if f.d == .s 0 then 0 else 1)
  s2.writeDst f.d s2.cx.next

/-- RET (06 R155). -/
def execRet (f : ScF) (s : State) := s.runI 0x1C1 f.hd [] fun st => do
  let (a, s1) ← st.readSrc f.a
  s1.transfer a 2

/-- TRAPI (06 R156): the software trap, with imm32 in INFO. -/
def execTrapi (f : ScF) (s : State) := s.runI 0x1C2 f.hd [] fun _ =>
  .error (.trap { cause := cSoft, info := some f.imm })

/-- EXIT (06 R157, 02 R66 step 1): the I-stream issues nothing further, and the PC stays at EXIT until steps 2 to 4 are
complete. The task's handle is closed from here on. -/
def execExit (f : ScF) (s : State) := s.runI 0x1C3 f.hd [] fun st =>
  .ok (st.upd fun t => { t with run := .exiting, closed := true, pc := st.cx.pc })

/-- YIELD (06 R157). -/
def execYield (f : ScF) (s : State) := s.runI 0x1C4 f.hd [] fun st => .ok (st.upd fun t => { t with yielded := true })

/-- Opcode 0xFFF (04 R94): illegal, whatever the other bits of the word hold. -/
def execIllegalOpcodeFff (_rest : BitVec 84) (s : State) : Host.Outcome State Fault Refusal :=
  if !s.ready then .fault .noTask else s.finish 0xFFF (.error (.trap { cause := 1, detail := 5, addr := s.cx.pc }))

end Sys2Proof.Machine
end

