-- ==== Sys2Proof/Machine/VecFloat.lean ====
section
/-! DEFINITION. Vector floating-point arithmetic, classification, comparison, selection, conversion and quantisation
(08 R194-R199). -/

namespace Sys2Proof.Machine

open Sys2Proof

/-- A decoded element with the flags of its reading: DF (05 R116) and NV for a signalling NaN that is computed on
(05 R110). -/
def decX (c code : Nat) : XV × Flags := (dec c code, (dec c code).sigFlags ||| decFlags c code)

/-- A result rounded into the format of the instruction, with the flags of the operation (05 R124). -/
def State.roundEl (s : State) (f : VecF) (e : Nat) (r : XV × Flags) (fl : Flags) : Nat × Flags :=
  let (code, g) := roundFmt r.1 f.fc f.rnd.toNat (s.dith f (fmtWidth f.fc) e) false false
  (code, g ||| r.2 ||| fl)

/-- One operand: `v := op x` rounded. -/
def State.vf1 (s : State) (f : VecF) (op : XV → XV × Flags) : Eff := do
  let (a, s1) ← s.readV f.a
  let w := fmtWidth f.fc
  s1.emit' f f.fc fun e =>
    let x := decX f.fc (vecEl a w e)
    s1.roundEl f e (op x.1) x.2

/-- Two operands: `v := op x y` rounded. -/
def State.vf2 (s : State) (f : VecF) (op : XV → XV → XV × Flags) : Eff := do
  let (a, s1) ← s.readV f.a
  let w := fmtWidth f.fc
  let (b, s2) ← s1.readB f w
  s2.emit' f f.fc fun e =>
    let x := decX f.fc (vecEl a w e)
    let y := decX f.fc (b e)
    s2.roundEl f e (op x.1 y.1) (x.2 ||| y.2)

/-- Three operands: `v := op x y z` rounded once. -/
def State.vf3 (s : State) (f : VecF) (op : XV → XV → XV → XV × Flags) : Eff := do
  let (a, s1) ← s.readV f.a
  let w := fmtWidth f.fc
  let (b, s2) ← s1.readB f w
  let (c, s3) ← s2.readV f.c
  s3.emit' f f.fc fun e =>
    let x := decX f.fc (vecEl a w e)
    let y := decX f.fc (b e)
    let z := decX f.fc (vecEl c w e)
    s3.roundEl f e (op x.1 y.1 z.1) (x.2 ||| y.2 ||| z.2)

/-- One operand, exact (08 R195). -/
def State.ve1 (s : State) (f : VecF) (op : XV → XV) : Eff := do
  let (a, s1) ← s.readV f.a
  let w := fmtWidth f.fc
  s1.emit' f f.fc fun e =>
    let x := decX f.fc (vecEl a w e)
    (exactCode f.fc (op x.1), x.2)

/-- Two operands, exact. -/
def State.ve2 (s : State) (f : VecF) (op : XV → XV → XV) : Eff := do
  let (a, s1) ← s.readV f.a
  let w := fmtWidth f.fc
  let (b, s2) ← s1.readB f w
  s2.emit' f f.fc fun e =>
    let x := decX f.fc (vecEl a w e)
    let y := decX f.fc (b e)
    (exactCode f.fc (op x.1 y.1), x.2 ||| y.2)

/-! Groups 0x10 and 0x11 (08 R194). -/

def execVadd (f : VecF) (s : State) := s.runV 0x400 fun st => st.vf2 f fun x y => XV.add f.rnd.toNat x y
def execVsub (f : VecF) (s : State) := s.runV 0x401 fun st => st.vf2 f fun x y => XV.add f.rnd.toNat x y.neg
def execVmul (f : VecF) (s : State) := s.runV 0x402 fun st => st.vf2 f fun x y => XV.mul x y
def execVfma (f : VecF) (s : State) := s.runV 0x403 fun st => st.vf3 f fun x y z => XV.fma f.rnd.toNat x y z
def execVfms (f : VecF) (s : State) := s.runV 0x404 fun st => st.vf3 f fun x y z => XV.fma f.rnd.toNat x y z.neg
def execVfnma (f : VecF) (s : State) := s.runV 0x405 fun st => st.vf3 f fun x y z => XV.fma f.rnd.toNat x.neg y z
def execVmin (f : VecF) (s : State) := s.runV 0x406 fun st => st.ve2 f fun x y => XV.min x y
def execVmax (f : VecF) (s : State) := s.runV 0x407 fun st => st.ve2 f fun x y => XV.max x y
def execVabs (f : VecF) (s : State) := s.runV 0x408 fun st => st.ve1 f fun x => x.abs
def execVneg (f : VecF) (s : State) := s.runV 0x409 fun st => st.ve1 f fun x => x.neg
def execVabsmax (f : VecF) (s : State) := s.runV 0x40A fun st => st.ve2 f fun x y => XV.max x.abs y.abs
def execVdiv (f : VecF) (s : State) := s.runV 0x440 fun st => st.vf2 f fun x y => XV.div x y
def execVsqrt (f : VecF) (s : State) := s.runV 0x441 fun st => st.vf1 f XV.sqrt
def execVrcp (f : VecF) (s : State) := s.runV 0x442 fun st => st.vf1 f XV.rcp
def execVrsq (f : VecF) (s : State) := s.runV 0x443 fun st => st.vf1 f XV.rsq
def execVexp2 (f : VecF) (s : State) := s.runV 0x444 fun st => st.vf1 f XV.exp2
def execVlog2 (f : VecF) (s : State) := s.runV 0x445 fun st => st.vf1 f XV.log2

/-- VSCALE: k is a signed integer of the element's width (08 R195). -/
def execVscale (f : VecF) (s : State) := s.runV 0x446 fun st => do
  let (a, s1) ← st.readV f.a
  let w := fmtWidth f.fc
  let (b, s2) ← s1.readB f w
  s2.emit' f f.fc fun e =>
    let x := decX f.fc (vecEl a w e)
    s2.roundEl f e (x.1.scale (sint w (b e)), 0) x.2

/-! Group 0x12 (08 R196). -/

/-- The class bit of a value; `sub` says that the code's exponent field is zero. -/
def classBit (x : XV) (sub : Bool) : Nat :=
  match x with
  | .nan true => 0
  | .nan false => 1
  | .inf neg => if neg then 2 else 9
  | .zero neg => if neg then 5 else 6
  | .fin q => if q < 0 then (if sub then 4 else 3) else if sub then 7 else 8

def execVclass (f : VecF) (s : State) := s.runV 0x480 fun st => do
  let (a, s1) ← st.readV f.a
  let w := fmtWidth f.fc
  s1.emit' f f.fc fun e =>
    let c := vecEl a w e
    (2 ^ classBit (dec f.fc c) (c / 2 ^ fmtM f.fc % 2 ^ fmtE f.fc == 0), decFlags f.fc c)

/-- The condition of VCMP on floats, with NV (08 R196). -/
def cmpFloat (cond : Nat) (x y : XV) : Bool × Flags :=
  let un := x.isNaN || y.isNaN
  let r := match cond with
    | 0 => XV.numEq x y
    | 1 => !XV.numEq x y
    | 2 => XV.numLt x y
    | 3 => XV.numLt x y || XV.numEq x y
    | 4 => XV.numLt y x
    | 5 => XV.numLt y x || XV.numEq x y
    | 6 => un
    | _ => !un
  (if un then cond == 1 || cond == 6 else r,
   if un && decide (2 ≤ cond) && decide (cond ≤ 5) then fNV else x.sigFlags ||| y.sigFlags)

/-- The condition of VCMP on integers. -/
def cmpInt (cond : Nat) (x y : Int) : Bool :=
  match cond with
  | 0 => x == y
  | 1 => x != y
  | 2 => decide (x < y)
  | 3 => decide (x ≤ y)
  | 4 => decide (y < x)
  | _ => decide (y ≤ x)

/-- The integer of an element code. -/
def intEl (c code : Nat) : Int := if fmtSigned c then sint (fmtWidth c) code else (code : Int)

/-- One element's mask bits. -/
def putMask (p : KReg) (zm : Bool) (w : Nat) (g : Nat → Bool × Flags) (acc : KReg × Flags) (e : Nat) : KReg × Flags :=
  let m : KReg := BitVec.ofNat 128 (2 ^ (w / 8) - 1) <<< (w / 8 * e)
  if elActive p w e then
    (if (g e).1 then acc.1 ||| m else acc.1 &&& ~~~m, acc.2 ||| (g e).2)
  else if zm then (acc.1 &&& ~~~m, acc.2)
  else acc

def execVcmp (f : VecF) (s : State) := s.runV 0x481 fun st => do
  let (a, s1) ← st.readV f.a
  let w := fmtWidth f.fc
  let (b, s2) ← s1.readB f w
  let g := fun e =>
    if isIntFmt f.fc then (cmpInt f.x.toNat (intEl f.fc (vecEl a w e)) (intEl f.fc (b e)), (0 : Flags))
    else
      let r := cmpFloat f.x.toNat (dec f.fc (vecEl a w e)) (dec f.fc (b e))
      (r.1, r.2 ||| decFlags f.fc (vecEl a w e) ||| decFlags f.fc (b e))
  let r := (List.range (fmtCap f.fc)).foldl (putMask (s2.pred f.hd) f.zm w g) (s2.kSrc f.d, 0)
  return (s2.writeK f.d r.1).raise r.2

def execVsel (f : VecF) (s : State) := s.runV 0x482 fun st => do
  let (a, s1) ← st.readV f.a
  let w := fmtWidth f.fc
  let (b, s2) ← s1.readB f w
  let k := s2.kSrc f.c
  s2.emit' f f.fc fun e => (if elActive k w e then vecEl a w e else b e, 0)

/-! Group 0x13 (08 R197-R199). -/

/-- Source and destination elements of a conversion from format `c` to `d` (08 R197): how many, and where they are. -/
def cvtCount (c d : Nat) : Nat := Nat.min (fmtCap c) (fmtCap d)
def cvtSrc (c d part e : Nat) : Nat := if fmtCap d < fmtCap c then e + part * cvtCount c d else e
def cvtDst (c d part e : Nat) : Nat := if fmtCap c < fmtCap d then e + part * cvtCount c d else e

/-- PART (08 R192). -/
def vecPart (f : VecF) : Nat := f.imm.toNat / 4096 % 8

/-- A conversion of `a` from `c` to `d`: `g` gives the exact value of a source code. -/
def State.convEls (s : State) (f : VecF) (a : VReg) (c d : Nat) (g : Nat → Nat → Nat × Flags) : Eff :=
  let n := cvtCount c d
  let base := cvtDst c d (vecPart f) 0
  s.emitEls f (fmtWidth d) ((List.range n).map (base + ·)) fun de =>
    g (vecEl a (fmtWidth c) (cvtSrc c d (vecPart f) (de - base))) (s.dith f (fmtWidth d) de)

def execVcvt (f : VecF) (s : State) := s.runV 0x4C0 fun st => do
  let (a, s1) ← st.readV f.a
  s1.convEls f a f.fc f.fc2 fun code i =>
    let x := decX f.fc code
    let (r, fl) := roundFmt x.1 f.fc2 f.rnd.toNat i true f.nov
    (r, fl ||| x.2)

def isQ8 (c : Nat) : Bool := c == 10 || c == 11
def q8K (c : Nat) : Rat := if c = 10 then 127 else 255

/-- The block bound of VQNT. -/
def qntBound (b : Word) : XV := (dec 0 (b.toNat % 2 ^ 32)).abs

/-- A signalling NaN as the bound sets NV (05 R110). -/
def qntFlags (b : Word) : Flags := (dec 0 (b.toNat % 2 ^ 32)).sigFlags

/-- X of 08 R198, for an MX format. -/
def qntX (m : XV) (q : Nat) : Int :=
  match m with
  | .fin v => clampInt (floorLog2 v - mxEmax q) (-127) 127
  | .zero _ => -127
  | _ => 0

/-- The scale of VQNT (08 R198). -/
def qntScale (m : XV) (q : Nat) : Nat :=
  match m with
  | .nan _ => if isQ8 q then canonNaN 0 else 255
  | .inf _ => if isQ8 q then canonNaN 0 else 255
  | m => if isQ8 q then exactCode 0 m else (qntX m q + 127).toNat

/-- A q8 or q8z code: the rounded quotient clamped (05 R115). -/
def q8Clamp (q : Nat) (r : Nat × Flags) : Nat × Flags :=
  let v := sint 64 r.1
  let lo : Int := if q = 10 then -127 else 0
  let hi : Int := if q = 10 then 127 else 255
  (wrap 8 (clampInt v lo hi), r.2 ||| flagIf (decide (v < lo) || decide (hi < v)) fSAT)

/-- The code of one element (08 R198). -/
def qntCode (m x : XV) (q rnd i : Nat) (nov : Bool) : Nat × Flags :=
  if isQ8 q then
    match m with
    | .nan _ => (0, fNV)
    | .inf _ => (0, fNV)
    | .zero _ => (0, 0)
    | .fin v =>
      let y : XV := match x with
        | .fin u => .fin (u * q8K q / v)
        | z => z
      q8Clamp q (roundFmt y 19 rnd i true false)
  else roundFmt (x.scale (-qntX m q)) q rnd i true nov

def execVqnt (f : VecF) (s : State) := s.runV 0x4C1 fun st => do
  let (a, s1) ← st.readV f.a
  let (b, s2) ← s1.readSc f.b
  let m := qntBound b
  s2.convEls f a f.fc f.fc2 fun code i =>
    let x := decX f.fc code
    let r := qntCode m x.1 f.fc2 f.rnd.toNat i f.nov
    (r.1, r.2 ||| x.2 ||| qntFlags b)

/-- VQNT.sout: the scale is pushed. -/
def execVqntSout (f : VecF) (s : State) := s.runV 0x4C1 fun st => do
  let (b, s1) ← st.readSc f.b
  (s1.writeQ f.d (BitVec.ofNat 64 (qntScale (qntBound b) f.fc2))).map fun s2 => s2.raise (qntFlags b)

/-- The exact value of a quantised code with its scale (05 R111, R115; 08 R199). Where the bullets of R115 overlap, a NaN scale
gives NaN and no Q8N for the code 0x80 too, and 0x80 gives +0 and Q8N under an infinite scale (assumption 83); a code 0 under
a negative scale gives −0 (assumption 84). -/
def dqntVal (q code : Nat) (b : Word) : XV × Flags :=
  if isQ8 q then
    let sc := dec 0 (b.toNat % 2 ^ 32)
    if sc.isNaN then (.nan false, sc.sigFlags)
    else if q = 10 && code % 256 == 128 then (.zero false, fQ8N)
    else
      let c : Int := if q = 10 then sint 8 code else (code % 256 : Nat)
      let p := XV.mul (XV.ofRat c) sc
      ((XV.div p.1 (.fin (q8K q))).1, p.2)
  else
    match e8m0 b.toNat with
    | none => (.nan false, 0)
    | some _ =>
      let x := decX q code
      (x.1.scale ((b.toNat % 256 : Nat) - 127), x.2)

def execVdqnt (f : VecF) (s : State) := s.runV 0x4C2 fun st => do
  let (a, s1) ← st.readV f.a
  let (b, s2) ← s1.readSc f.b
  s2.convEls f a f.fc2 f.fc fun code i =>
    let x := dqntVal f.fc2 code b
    let (r, fl) := roundFmt x.1 f.fc f.rnd.toNat i true f.nov
    (r, fl ||| x.2)

end Sys2Proof.Machine
end

