-- ==== Sys2Proof/Machine/VecMem.lean ====
section
/-! DEFINITION. Vector memory, address generators, bound registers and REP (08 R205-R213). -/

namespace Sys2Proof.Machine

open Sys2Proof

/-! Vector memory (08 R205, R206). -/

/-- The access of one element. -/
def vecAcc (va : Word) (n : Nat) (wr : Bool) : Acc := { va := va, n := n, al := n, wr := wr }

/-- The active elements of an instruction with their addresses. -/
def State.vecActive (s : State) (f : VecF) (addr : Nat → Word) : List (Nat × Word) :=
  ((List.range (fmtCap f.fc)).filter fun e => elActive (s.pred f.hd) (fmtWidth f.fc) e).map fun e => (e, addr e)

/-- Every check of every active element is made before any element is accessed; the lowest failing one decides. -/
def State.vecCheck (s : State) (n : Nat) (wr : Bool) (es : List (Nat × Word)) : Except Stop (List (Nat × Acc × Nat × Tr)) :=
  es.mapM fun e => do
    if s.wheelWait { lo := e.2.toNat, n := n, wr := wr } then .error .stall
    else
      match s.check s.whoMe (vecAcc e.2 n wr) with
      | .ok pa t => return (e.1, vecAcc e.2 n wr, pa, t)
      | c => .error c.stop

/-- A vector load whose element e is at `addr e`. -/
def State.vecLoad (s : State) (f : VecF) (addr : Nat → Word) : Eff := do
  let n := fmtWidth f.fc / 8
  let accs ← s.vecCheck n false (s.vecActive f addr)
  let r := accs.foldl
    (fun (p : Map Nat × State) x =>
      let (v, s1) := p.2.readAt p.2.whoMe x.2.1 x.2.2.1 x.2.2.2
      (p.1.set x.1 v, s1)) ([], s)
  r.2.emit' f f.fc fun e => (r.1.getD e 0, 0)

/-- A vector store of the elements of `v`, in ascending order. -/
def State.vecStore (s : State) (f : VecF) (v : VReg) (addr : Nat → Word) : Eff := do
  let w := fmtWidth f.fc
  let accs ← s.vecCheck (w / 8) true (s.vecActive f addr)
  return accs.foldl (fun st x => st.writeAt st.whoMe x.2.1 x.2.2.1 x.2.2.2 (vecEl v w x.1)) s

/-- va + e·s (08 R205). -/
def State.vecLinear (s : State) (f : VecF) (e : Nat) : Word :=
  vecAddr f s.cx.scal + BitVec.ofNat 64 (e * (fmtWidth f.fc / 8))

/-- The address of an indexed element. -/
def State.vecIndexed (s : State) (f : VecF) (idx : VReg) (e : Nat) : Word := idxAddr f s.cx.scal idx e

def execVld (f : VecF) (s : State) := s.runV 0x700 fun st => st.vecLoad f fun e => st.vecLinear f e

def execVst (f : VecF) (s : State) := s.runV 0x701 fun st => do
  let (b, s1) ← st.readV f.b
  s1.vecStore f b fun e => st.vecLinear f e

/-- VLDS: imm32 is the stride. -/
def execVlds (f : VecF) (s : State) := s.runV 0x702 fun st =>
  st.vecLoad f fun e => st.cx.scal + BitVec.ofNat 64 e * f.imm.signExtend 64

def execVgath (f : VecF) (s : State) := s.runV 0x703 fun st => do
  let (b, s1) ← st.readV f.b
  s1.vecLoad f fun e => st.vecIndexed f b e

def execVscat (f : VecF) (s : State) := s.runV 0x704 fun st => do
  let (b, s1) ← st.readV f.b
  let (c, s2) ← s1.readV f.c
  s2.vecStore f c fun e => st.vecIndexed f b e

/-! Generators (08 R207, R208). -/

/-- The generator that [34:32] names. -/
def vecGen (f : VecF) : Fin 8 := ⟨f.x.toNat % 8, Nat.mod_lt _ (by decide)⟩

/-- The generator of a descriptor, with VALID set. -/
def genOfDesc (x : Nat) : Gen :=
  let w := fun (o : Nat) => x / 2 ^ (8 * o)
  { Gen.reset with
    base := BitVec.ofNat 64 (w 0)
    ext := Vector.ofFn fun i => BitVec.ofNat 32 (w (8 + 4 * i.val))
    str := Vector.ofFn fun i => BitVec.ofNat 32 (w (24 + 4 * i.val))
    pos := BitVec.ofNat 32 (w 44)
    dir := (w 40).testBit 1
    valid := true }

/-- The conditions on a descriptor (08 R208); one with a nonzero VREG fails (assumption 108). -/
def genDescOk (x : Nat) : Bool :=
  let g := genOfDesc x
  let ctl := x / 2 ^ 320 % 2 ^ 32
  Nat.land ctl 0xFFFFFFFD == 0 && g.ext.toList.all (fun e => e != 0) && g.base.toNat % 8 == 0
    && g.str.toList.all (fun e => e.toNat % 8 == 0) && decide (g.total < 2 ^ 32) && decide (g.pos.toNat ≤ g.total)

def execAgen (f : VecF) (s : State) := s.runV 0x7C0 fun st => do
  let i := vecGen f
  let va := vecAddr f st.cx.scal
  if st.me.gens[i].bound then .error (trapOf cStreamBind)
  else if st.wheelWait { lo := va.toNat, n := 48, wr := false } then .error .stall
  else
    match st.readStruct st.whoMe va 48 8 with
    | .error c => .error (c.atAddr va).stop
    | .ok (x, s1) =>
      if genDescOk x then return s1.upd fun t => t.setGen i (genOfDesc x)
      else .error (trapOf cStreamDesc va)

def execQbind (f : VecF) (s : State) := s.runV 0x7C1 fun st =>
  let i := vecGen f
  let g := st.me.gens[i]
  match f.d with
  | .v n =>
    if !g.valid || g.bound || (st.me.boundGen n).isSome then .error (trapOf cStreamBind)
    else .ok (st.upd fun t =>
      t.setGen i { g with bound := true, vreg := BitVec.ofNat 3 (n.toNat - 24), fifo := [], out := [], last := none })
  | _ => .ok st

/-- QFREE: an output stream's groups have been performed when it completes. -/
def execQfree (f : VecF) (s : State) := s.runV 0x7C2 fun st =>
  match f.d with
  | .v n =>
    match st.me.boundGen n with
    | none => .ok st
    | some (i, g) =>
      if !g.out.isEmpty && !(st.cx.now && g.out.all st.groupFree) then .error .stall
      else
        .ok ((g.out.foldl State.putGroup st).upd fun t =>
          (t.setGen i { g with bound := false, fifo := [], out := [] }).setV n (g.last.getD (t.vreg n)))
  | _ => .ok st

/-! REP (08 R211-R213). -/

/-- The REP at the head of the V-stream takes its count: 0 discards the captured instructions. -/
def State.repTake (s : State) (f : VecF) (count : Nat) : State :=
  s.upd fun t =>
    { t with vq := match t.vq with
      | [] => []
      | e :: r => match e.ins with
        | some (.rep _) =>
          if count = 0 then e :: r.drop (repLen f) else { e with scal := repState 0 0 count } :: r
        | _ => e :: r }

def execRep (f : VecF) (s : State) := s.runV 0x7C3 fun st => do
  let (n, s1) ← st.readSc f.a
  if 65536 < n.toNat then .error (trapOf cOperand) else return s1.repTake f n.toNat

end Sys2Proof.Machine
end

