-- ==== Sys2Proof/Machine/VecMove.lean ====
section
/-! DEFINITION. Vector integer and logic, data movement, reductions, scans and masks (08 R200-R204). -/

namespace Sys2Proof.Machine

open Sys2Proof

/-! Groups 0x18 and 0x19 (08 R200, R201). -/

/-- One integer operation: `op` on the values and the codes of x and y; the result is taken modulo 2^w. -/
def State.vi (s : State) (f : VecF) (op : Int → Int → Nat → Nat → Int) : Eff := do
  let (a, s1) ← s.readV f.a
  let w := fmtWidth f.fc
  let (b, s2) ← s1.readB f w
  s2.emit' f f.fc fun e =>
    let x := vecEl a w e
    let y := b e
    (wrap w (op (intEl f.fc x) (intEl f.fc y) x y), 0)

/-- The clamp of SAT (08 R201). -/
def vecSat (c : Nat) (sat : Bool) (r : Int) : Int :=
  if sat then
    let w := fmtWidth c
    if fmtSigned c then clampInt r (-(2 ^ (w - 1) : Nat)) ((2 ^ (w - 1) : Nat) - 1) else clampInt r 0 ((2 ^ w : Nat) - 1)
  else r

def execViadd (f : VecF) (s : State) := s.runV 0x600 fun st => st.vi f fun x y _ _ => vecSat f.fc (f.x.getLsbD 0) (x + y)
def execVisub (f : VecF) (s : State) := s.runV 0x601 fun st => st.vi f fun x y _ _ => vecSat f.fc (f.x.getLsbD 0) (x - y)
def execVimul (f : VecF) (s : State) := s.runV 0x602 fun st => st.vi f fun x y _ _ =>
  if f.x.getLsbD 1 then x * y / ((2 ^ fmtWidth f.fc : Nat) : Int) else x * y
def execVimin (f : VecF) (s : State) := s.runV 0x603 fun st => st.vi f fun x y _ _ => Min.min x y
def execVimax (f : VecF) (s : State) := s.runV 0x604 fun st => st.vi f fun x y _ _ => Max.max x y
def execVand (f : VecF) (s : State) := s.runV 0x640 fun st => st.vi f fun _ _ p q => (Nat.land p q : Nat)
def execVor (f : VecF) (s : State) := s.runV 0x641 fun st => st.vi f fun _ _ p q => (Nat.lor p q : Nat)
def execVxor (f : VecF) (s : State) := s.runV 0x642 fun st => st.vi f fun _ _ p q => (Nat.xor p q : Nat)
def execVshl (f : VecF) (s : State) := s.runV 0x643 fun st => st.vi f fun _ _ p q => (p * 2 ^ (q % fmtWidth f.fc) : Nat)
def execVshr (f : VecF) (s : State) := s.runV 0x644 fun st => st.vi f fun _ _ p q => (p / 2 ^ (q % fmtWidth f.fc) : Nat)
def execVsar (f : VecF) (s : State) := s.runV 0x645 fun st => st.vi f fun _ _ p q =>
  sint (fmtWidth f.fc) p / ((2 ^ (q % fmtWidth f.fc) : Nat) : Int)

/-! Data movement (08 R202). -/

def execVbcast (f : VecF) (s : State) := s.runV 0x740 fun st => do
  let (b, s1) ← st.readSc f.b
  s1.emit' f f.fc fun _ => (b.toNat, 0)

/-- An element as a pushed value: sign-extended for i8 to i64 (08 R202, R203). -/
def elWord (c code : Nat) : Word := if fmtSigned c then sext64 (fmtWidth c) code else BitVec.ofNat 64 code

/-- VEXT: the predicate is ignored. -/
def execVext (f : VecF) (s : State) := s.runV 0x741 fun st => do
  let (a, s1) ← st.readV f.a
  s1.writeQ f.d (elWord f.fc (vecEl a (fmtWidth f.fc) f.imm.toNat))

/-- Whether a register is bound to a stream. -/
def State.isBound (s : State) : Reg → Bool
  | .v n => (s.me.boundGen n).isSome
  | _ => false

/-- VINS: the other elements of d are kept. d is read, and a bound register cannot be both read and written (08 R209). -/
def execVins (f : VecF) (s : State) := s.runV 0x742 fun st => do
  if st.isBound f.d then .error (trapOf cStreamBind)
  else
  let (b, s1) ← st.readSc f.b
  s1.emitEls f (fmtWidth f.fc) [f.imm.toNat] fun _ => (b.toNat, 0)

def execVperm (f : VecF) (s : State) := s.runV 0x743 fun st => do
  let (a, s1) ← st.readV f.a
  let (b, s2) ← s1.readV f.b
  let w := fmtWidth f.fc
  s2.emit' f f.fc fun e => (vecEl a w (vecEl b w e % fmtCap f.fc), 0)

/-- Element j of the sequence a, b (08 R202). -/
def pairEl (a b : VReg) (w n j : Nat) : Nat := if j < n then vecEl a w j else vecEl b w (j - n)

/-- Which element of a, b VSHUF's pattern puts at e. -/
def shufIdx (p n win e : Nat) : Nat :=
  match p with
  | 0 => e / 2 + if e % 2 = 0 then 0 else n
  | 1 => n / 2 + e / 2 + if e % 2 = 0 then 0 else n
  | 2 => 2 * e
  | 3 => 2 * e + 1
  | _ => e + win

def execVshuf (f : VecF) (s : State) := s.runV 0x744 fun st => do
  let (a, s1) ← st.readV f.a
  let (b, s2) ← s1.readV f.b
  let w := fmtWidth f.fc
  let n := fmtCap f.fc
  s2.emit' f f.fc fun e => (pairEl a b w n (shufIdx f.x.toNat n f.imm.toNat e), 0)

def execViota (f : VecF) (s : State) := s.runV 0x745 fun st => do
  let (b, s1) ← st.readSc f.b
  s1.emit' f f.fc fun e => ((b.toNat + e) % 2 ^ fmtWidth f.fc, 0)

def execVmov (f : VecF) (s : State) := s.runV 0x748 fun st => do
  let (a, s1) ← st.readV f.a
  s1.emit' f f.fc fun e => (vecEl a (fmtWidth f.fc) e, 0)

/-! Reductions and scans (08 R203, 05 R126). -/

/-- The identity of a reduction (08 R203). -/
def redIdentity (c o : Nat) : Nat :=
  if isIntFmt c then
    let w := fmtWidth c
    match o with
    | 1 => if fmtSigned c then 2 ^ (w - 1) - 1 else 2 ^ w - 1
    | 2 => if fmtSigned c then 2 ^ (w - 1) else 0
    | 4 => 2 ^ w - 1
    | _ => 0
  else
    match o with
    | 0 => zeroCode c true
    | 1 => infCode c false
    | 2 => infCode c true
    | _ => zeroCode c false

/-- One operation of a reduction on codes; float sums round under RNE (05 R126). -/
def redOp (c o x y : Nat) : Nat × Flags :=
  if isIntFmt c then
    let w := fmtWidth c
    match o with
    | 0 => ((x + y) % 2 ^ w, 0)
    | 1 => (if intEl c x ≤ intEl c y then x else y, 0)
    | 2 => (if intEl c x ≤ intEl c y then y else x, 0)
    | 4 => (Nat.land x y, 0)
    | 5 => (Nat.lor x y, 0)
    | _ => (Nat.xor x y, 0)
  else
    let a := decX c x
    let b := decX c y
    match o with
    | 0 =>
      let (v, f) := XV.add 0 a.1 b.1
      let (code, g) := roundFmt v c 0 0 false false
      (code, f ||| g ||| a.2 ||| b.2)
    | 1 => (exactCode c (XV.min a.1 b.1), a.2 ||| b.2)
    | _ => (exactCode c (XV.max a.1 b.1), a.2 ||| b.2)

/-- The source elements of a reduction: identities where inactive, magnitudes for `.amax`. -/
def redSource (p : KReg) (c o : Nat) (a : VReg) : List Nat :=
  let w := fmtWidth c
  (List.range (fmtCap c)).map fun e =>
    if elActive p w e then
      let x := vecEl a w e
      if o = 3 && !isIntFmt c then x % 2 ^ (w - 1) else x
    else redIdentity c o

/-- The tree of 05 R126: each round combines the lower half with the upper. -/
def redTree (c o : Nat) : Nat → List Nat → Flags → Nat × Flags
  | 0, l, fl => (l.headD 0, fl)
  | n + 1, l, fl =>
    let h := l.length / 2
    if h = 0 then (l.headD 0, fl)
    else
      let r := ((l.take h).zip (l.drop h)).map fun p => redOp c o p.1 p.2
      redTree c o n (r.map (·.1)) (r.foldl (fun a x => a ||| x.2) fl)

def execVred (f : VecF) (s : State) := s.runV 0x746 fun st => do
  let (a, s1) ← st.readV f.a
  let o := f.x.toNat
  let (r, fl) := redTree f.fc o 8 (redSource (s1.pred f.hd) f.fc o a) 0
  let s2 ← match f.d with
    | .q n => s1.pushQ n (elWord f.fc r)
    | d => s1.writeV d (BitVec.ofNat 1024 r)
  return s2.raise fl

/-- The steps of a scan at distances `o`, 2`o`, … (05 R126). -/
def scanSteps (c o : Nat) : Nat → Nat → List Nat → Flags → List Nat × Flags
  | 0, _, l, fl => (l, fl)
  | n + 1, d, l, fl =>
    if l.length ≤ d then (l, fl)
    else
      let r := (l.zip (l.drop d)).map fun p => redOp c o p.1 p.2
      scanSteps c o n (2 * d) (l.take d ++ r.map (·.1)) (r.foldl (fun a x => a ||| x.2) fl)

/-- Element 0 of a float scan, which no step changes: no NaN payload passes, and a BF16 subnormal is read as zero (05 R110,
R116). -/
def scanFirst (c : Nat) : List Nat → List Nat
  | [] => []
  | x :: r => (if isIntFmt c then x else exactCode c (dec c x)) :: r

/-- VSCAN (08 R203). The flags of every step are raised, those of inactive positions too (assumption 110). -/
def execVscan (f : VecF) (s : State) := s.runV 0x747 fun st => do
  let (a, s1) ← st.readV f.a
  let o := f.x.toNat
  let (r, fl) := scanSteps f.fc o 8 1 (redSource (s1.pred f.hd) f.fc o a) 0
  let s2 ← s1.emit' f f.fc fun e => ((scanFirst f.fc r).getD e 0, 0)
  return s2.raise fl

/-! Masks (08 R204). -/

/-- A k destination: inactive bits are kept, or cleared with ZM. -/
def State.putK (s : State) (f : VecF) (x : KReg) : Eff :=
  let p := s.pred f.hd
  let keep := if f.zm then 0 else s.kSrc f.d &&& ~~~p
  .ok (s.writeK f.d ((x &&& p) ||| keep))

def execKand (f : VecF) (s : State) := s.runV 0x780 fun st => st.putK f (st.kSrc f.a &&& st.kSrc f.b)
def execKor (f : VecF) (s : State) := s.runV 0x781 fun st => st.putK f (st.kSrc f.a ||| st.kSrc f.b)
def execKxor (f : VecF) (s : State) := s.runV 0x782 fun st => st.putK f (st.kSrc f.a ^^^ st.kSrc f.b)
def execKnot (f : VecF) (s : State) := s.runV 0x783 fun st => st.putK f (~~~(st.kSrc f.a))

/-- The positions of the set bits, lowest first. -/
def setBitsOf (x : KReg) : List Nat := (List.range 128).filter x.getLsbD

def execKpop (f : VecF) (s : State) := s.runV 0x784 fun st =>
  st.writeQ f.d (BitVec.ofNat 64 (setBitsOf (st.kSrc f.a &&& st.pred f.hd)).length)
def execKfirst (f : VecF) (s : State) := s.runV 0x785 fun st =>
  st.writeQ f.d (BitVec.ofNat 64 ((setBitsOf (st.kSrc f.a &&& st.pred f.hd)).headD 128))
def execKmov (f : VecF) (s : State) := s.runV 0x786 fun st => st.putK f (st.kSrc f.a)

end Sys2Proof.Machine
end

