-- ==== Sys2Proof/Machine/Dispatch.lean ====
section
/-! DEFINITION. Which definition gives each instruction its meaning. -/

namespace Sys2Proof.Machine

open Sys2Proof

def exec (i : Instr) (s : State) : Host.Outcome State Fault Refusal :=
  match i with
  | .nop f => Sys2Proof.Machine.execNop f s
  | .add f => Sys2Proof.Machine.execAdd f s
  | .sub f => Sys2Proof.Machine.execSub f s
  | .mul f => Sys2Proof.Machine.execMul f s
  | .mulh f => Sys2Proof.Machine.execMulh f s
  | .mad f => Sys2Proof.Machine.execMad f s
  | .div f => Sys2Proof.Machine.execDiv f s
  | .rem f => Sys2Proof.Machine.execRem f s
  | .min f => Sys2Proof.Machine.execMin f s
  | .max f => Sys2Proof.Machine.execMax f s
  | .and f => Sys2Proof.Machine.execAnd f s
  | .or f => Sys2Proof.Machine.execOr f s
  | .xor f => Sys2Proof.Machine.execXor f s
  | .andn f => Sys2Proof.Machine.execAndn f s
  | .orn f => Sys2Proof.Machine.execOrn f s
  | .shl f => Sys2Proof.Machine.execShl f s
  | .shr f => Sys2Proof.Machine.execShr f s
  | .sar f => Sys2Proof.Machine.execSar f s
  | .rol f => Sys2Proof.Machine.execRol f s
  | .ror f => Sys2Proof.Machine.execRor f s
  | .clz f => Sys2Proof.Machine.execClz f s
  | .ctz f => Sys2Proof.Machine.execCtz f s
  | .popc f => Sys2Proof.Machine.execPopc f s
  | .brev f => Sys2Proof.Machine.execBrev f s
  | .bswap f => Sys2Proof.Machine.execBswap f s
  | .set f => Sys2Proof.Machine.execSet f s
  | .sel f => Sys2Proof.Machine.execSel f s
  | .sext f => Sys2Proof.Machine.execSext f s
  | .zext f => Sys2Proof.Machine.execZext f s
  | .lea f => Sys2Proof.Machine.execLea f s
  | .bfx f => Sys2Proof.Machine.execBfx f s
  | .bfi f => Sys2Proof.Machine.execBfi f s
  | .zord f => Sys2Proof.Machine.execZord f s
  | .zdec f => Sys2Proof.Machine.execZdec f s
  | .mov f => Sys2Proof.Machine.execMov f s
  | .li f => Sys2Proof.Machine.execLi f s
  | .jmp f => Sys2Proof.Machine.execJmp f s
  | .call f => Sys2Proof.Machine.execCall f s
  | .loop f => Sys2Proof.Machine.execLoop f s
  | .brEq f => Sys2Proof.Machine.execBrEq f s
  | .brNe f => Sys2Proof.Machine.execBrNe f s
  | .brLtZ64 f => Sys2Proof.Machine.execBrLtZ64 f s
  | .brLtI64 f => Sys2Proof.Machine.execBrLtI64 f s
  | .brGeZ64 f => Sys2Proof.Machine.execBrGeZ64 f s
  | .brGeI64 f => Sys2Proof.Machine.execBrGeI64 f s
  | .brLeZ64 f => Sys2Proof.Machine.execBrLeZ64 f s
  | .brLeI64 f => Sys2Proof.Machine.execBrLeI64 f s
  | .brGtZ64 f => Sys2Proof.Machine.execBrGtZ64 f s
  | .brGtI64 f => Sys2Proof.Machine.execBrGtI64 f s
  | .jr f => Sys2Proof.Machine.execJr f s
  | .ret f => Sys2Proof.Machine.execRet f s
  | .trapi f => Sys2Proof.Machine.execTrapi f s
  | .exit f => Sys2Proof.Machine.execExit f s
  | .yield f => Sys2Proof.Machine.execYield f s
  | .illegalOpcodeFff rest => Sys2Proof.Machine.execIllegalOpcodeFff rest s
  | .ld f => Sys2Proof.Machine.execLd f s
  | .st f => Sys2Proof.Machine.execSt f s
  | .ldp f => Sys2Proof.Machine.execLdp f s
  | .stp f => Sys2Proof.Machine.execStp f s
  | .pref f => Sys2Proof.Machine.execPref f s
  | .wbl f => Sys2Proof.Machine.execWbl f s
  | .invl f => Sys2Proof.Machine.execInvl f s
  | .zerol f => Sys2Proof.Machine.execZerol f s
  | .pin f => Sys2Proof.Machine.execPin f s
  | .unpin f => Sys2Proof.Machine.execUnpin f s
  | .amoAdd f => Sys2Proof.Machine.execAmoAdd f s
  | .amoAnd f => Sys2Proof.Machine.execAmoAnd f s
  | .amoOr f => Sys2Proof.Machine.execAmoOr f s
  | .amoXor f => Sys2Proof.Machine.execAmoXor f s
  | .amoSmin f => Sys2Proof.Machine.execAmoSmin f s
  | .amoSmax f => Sys2Proof.Machine.execAmoSmax f s
  | .amoZmin f => Sys2Proof.Machine.execAmoZmin f s
  | .amoZmax f => Sys2Proof.Machine.execAmoZmax f s
  | .amoSwap f => Sys2Proof.Machine.execAmoSwap f s
  | .amoFaddFp32 f => Sys2Proof.Machine.execAmoFaddFp32 f s
  | .amoFmaxFp32 f => Sys2Proof.Machine.execAmoFmaxFp32 f s
  | .cas f => Sys2Proof.Machine.execCas f s
  | .mcas f => Sys2Proof.Machine.execMcas f s
  | .fence f => Sys2Proof.Machine.execFence f s
  | .iold f => Sys2Proof.Machine.execIold f s
  | .iost f => Sys2Proof.Machine.execIost f s
  | .vadd f => Sys2Proof.Machine.execVadd f s
  | .vsub f => Sys2Proof.Machine.execVsub f s
  | .vmul f => Sys2Proof.Machine.execVmul f s
  | .vfma f => Sys2Proof.Machine.execVfma f s
  | .vfms f => Sys2Proof.Machine.execVfms f s
  | .vfnma f => Sys2Proof.Machine.execVfnma f s
  | .vmin f => Sys2Proof.Machine.execVmin f s
  | .vmax f => Sys2Proof.Machine.execVmax f s
  | .vabs f => Sys2Proof.Machine.execVabs f s
  | .vneg f => Sys2Proof.Machine.execVneg f s
  | .vabsmax f => Sys2Proof.Machine.execVabsmax f s
  | .vdiv f => Sys2Proof.Machine.execVdiv f s
  | .vsqrt f => Sys2Proof.Machine.execVsqrt f s
  | .vrcp f => Sys2Proof.Machine.execVrcp f s
  | .vrsq f => Sys2Proof.Machine.execVrsq f s
  | .vexp2 f => Sys2Proof.Machine.execVexp2 f s
  | .vlog2 f => Sys2Proof.Machine.execVlog2 f s
  | .vscale f => Sys2Proof.Machine.execVscale f s
  | .vclass f => Sys2Proof.Machine.execVclass f s
  | .vcmp f => Sys2Proof.Machine.execVcmp f s
  | .vsel f => Sys2Proof.Machine.execVsel f s
  | .vcvt f => Sys2Proof.Machine.execVcvt f s
  | .vqnt f => Sys2Proof.Machine.execVqnt f s
  | .vqntSout f => Sys2Proof.Machine.execVqntSout f s
  | .vdqnt f => Sys2Proof.Machine.execVdqnt f s
  | .viadd f => Sys2Proof.Machine.execViadd f s
  | .visub f => Sys2Proof.Machine.execVisub f s
  | .vimul f => Sys2Proof.Machine.execVimul f s
  | .vimin f => Sys2Proof.Machine.execVimin f s
  | .vimax f => Sys2Proof.Machine.execVimax f s
  | .vand f => Sys2Proof.Machine.execVand f s
  | .vor f => Sys2Proof.Machine.execVor f s
  | .vxor f => Sys2Proof.Machine.execVxor f s
  | .vshl f => Sys2Proof.Machine.execVshl f s
  | .vshr f => Sys2Proof.Machine.execVshr f s
  | .vsar f => Sys2Proof.Machine.execVsar f s
  | .vld f => Sys2Proof.Machine.execVld f s
  | .vst f => Sys2Proof.Machine.execVst f s
  | .vlds f => Sys2Proof.Machine.execVlds f s
  | .vgath f => Sys2Proof.Machine.execVgath f s
  | .vscat f => Sys2Proof.Machine.execVscat f s
  | .vbcast f => Sys2Proof.Machine.execVbcast f s
  | .vext f => Sys2Proof.Machine.execVext f s
  | .vins f => Sys2Proof.Machine.execVins f s
  | .vperm f => Sys2Proof.Machine.execVperm f s
  | .vshuf f => Sys2Proof.Machine.execVshuf f s
  | .viota f => Sys2Proof.Machine.execViota f s
  | .vred f => Sys2Proof.Machine.execVred f s
  | .vscan f => Sys2Proof.Machine.execVscan f s
  | .vmov f => Sys2Proof.Machine.execVmov f s
  | .kand f => Sys2Proof.Machine.execKand f s
  | .kor f => Sys2Proof.Machine.execKor f s
  | .kxor f => Sys2Proof.Machine.execKxor f s
  | .knot f => Sys2Proof.Machine.execKnot f s
  | .kpop f => Sys2Proof.Machine.execKpop f s
  | .kfirst f => Sys2Proof.Machine.execKfirst f s
  | .kmov f => Sys2Proof.Machine.execKmov f s
  | .agen f => Sys2Proof.Machine.execAgen f s
  | .qbind f => Sys2Proof.Machine.execQbind f s
  | .qfree f => Sys2Proof.Machine.execQfree f s
  | .rep f => Sys2Proof.Machine.execRep f s
  | .mldb f => Sys2Proof.Machine.execMldb f s
  | .mldc f => Sys2Proof.Machine.execMldc f s
  | .mknot f => Sys2Proof.Machine.execMknot f s
  | .mlds f => Sys2Proof.Machine.execMlds f s
  | .mma f => Sys2Proof.Machine.execMma f s
  | .mmac f => Sys2Proof.Machine.execMmac f s
  | .mspl f => Sys2Proof.Machine.execMspl f s
  | .msdx f => Sys2Proof.Machine.execMsdx f s
  | .msgrad f => Sys2Proof.Machine.execMsgrad f s
  | .mrefine f => Sys2Proof.Machine.execMrefine f s
  | .mzeroSag f => Sys2Proof.Machine.execMzeroSag f s
  | .mzeroBat f => Sys2Proof.Machine.execMzeroBat f s
  | .mzeroRib f => Sys2Proof.Machine.execMzeroRib f s
  | .mrd f => Sys2Proof.Machine.execMrd f s
  | .mwr f => Sys2Proof.Machine.execMwr f s
  | .mdrain f => Sys2Proof.Machine.execMdrain f s
  | .mstat f => Sys2Proof.Machine.execMstat f s
  | .cpy f => Sys2Proof.Machine.execCpy f s
  | .cpyr f => Sys2Proof.Machine.execCpyr f s
  | .cpyqf f => Sys2Proof.Machine.execCpyqf f s
  | .sleept f => Sys2Proof.Machine.execSleept f s
  | .cinit f => Sys2Proof.Machine.execCinit f s
  | .arrive f => Sys2Proof.Machine.execArrive f s
  | .arriveW f => Sys2Proof.Machine.execArriveW f s
  | .arriveRmt f => Sys2Proof.Machine.execArriveRmt f s
  | .expect f => Sys2Proof.Machine.execExpect f s
  | .cwait f => Sys2Proof.Machine.execCwait f s
  | .ctest f => Sys2Proof.Machine.execCtest f s
  | .evsig f => Sys2Proof.Machine.execEvsig f s
  | .evsigRmt f => Sys2Proof.Machine.execEvsigRmt f s
  | .mutexl f => Sys2Proof.Machine.execMutexl f s
  | .mutexu f => Sys2Proof.Machine.execMutexu f s
  | .msend f => Sys2Proof.Machine.execMsend f s
  | .mtake f => Sys2Proof.Machine.execMtake f s
  | .mpeek f => Sys2Proof.Machine.execMpeek f s
  | .mwaitf f => Sys2Proof.Machine.execMwaitf f s
  | .spawn f => Sys2Proof.Machine.execSpawn f s
  | .join f => Sys2Proof.Machine.execJoin f s
  | .gang f => Sys2Proof.Machine.execGang f s
  | .rinit f => Sys2Proof.Machine.execRinit f s
  | .rtake f => Sys2Proof.Machine.execRtake f s
  | .tself f => Sys2Proof.Machine.execTself f s
  | .sign f => Sys2Proof.Machine.execSign f s
  | .step f => Sys2Proof.Machine.execStep f s
  | .dissolve f => Sys2Proof.Machine.execDissolve f s
  | .ckpt f => Sys2Proof.Machine.execCkpt f s
  | .abort f => Sys2Proof.Machine.execAbort f s
  | .srd f => Sys2Proof.Machine.execSrd f s
  | .swr f => Sys2Proof.Machine.execSwr f s
  | .eret f => Sys2Proof.Machine.execEret f s
  | .tlbiDom f => Sys2Proof.Machine.execTlbiDom f s
  | .tlbiPage f => Sys2Proof.Machine.execTlbiPage f s
  | .tlbiRange f => Sys2Proof.Machine.execTlbiRange f s
  | .tlbiAll f => Sys2Proof.Machine.execTlbiAll f s
  | .preemptTask f => Sys2Proof.Machine.execPreemptTask f s
  | .preemptGang f => Sys2Proof.Machine.execPreemptGang f s
  | .preemptCompact f => Sys2Proof.Machine.execPreemptCompact f s
  | .resumeTask f => Sys2Proof.Machine.execResumeTask f s
  | .resumeGang f => Sys2Proof.Machine.execResumeGang f s
  | .resumeCompact f => Sys2Proof.Machine.execResumeCompact f s
  | .haltg f => Sys2Proof.Machine.execHaltg f s
  | .salvage f => Sys2Proof.Machine.execSalvage f s
  | .uGroupComplete clus gang n => Sys2Proof.Machine.execUGroupComplete clus gang n s
  | .asyncCauseTaken task => Sys2Proof.Machine.execAsyncCauseTaken task s
  | .breakpoint task => Sys2Proof.Machine.execBreakpoint task s
  | .singleStepTrap task => Sys2Proof.Machine.execSingleStepTrap task s
  | .fetchParityRefetch task => Sys2Proof.Machine.execFetchParityRefetch task s
  | .frameLineFetch task line => Sys2Proof.Machine.execFrameLineFetch task line s
  | .streamGroupRead task gen => Sys2Proof.Machine.execStreamGroupRead task gen s
  | .streamGroupWrite task gen => Sys2Proof.Machine.execStreamGroupWrite task gen s
  | .recordDispatch tile ctx => Sys2Proof.Machine.execRecordDispatch tile ctx s
  | .queueAging die prio => Sys2Proof.Machine.execQueueAging die prio s
  | .joinHeldPush die => Sys2Proof.Machine.execJoinHeldPush die s
  | .gangWake gang tile => Sys2Proof.Machine.execGangWake gang tile s
  | .gangStart gang => Sys2Proof.Machine.execGangStart gang s
  | .wireRequestServe die idx => Sys2Proof.Machine.execWireRequestServe die idx s
  | .waitDeadline task => Sys2Proof.Machine.execWaitDeadline task s
  | .sleeptExpiry task => Sys2Proof.Machine.execSleeptExpiry task s
  | .wheelCommandStart clus => Sys2Proof.Machine.execWheelCommandStart clus s
  | .wheelCommandComplete clus array => Sys2Proof.Machine.execWheelCommandComplete clus array s
  | .damperGrant clus => Sys2Proof.Machine.execDamperGrant clus s
  | .copyStart clus id => Sys2Proof.Machine.execCopyStart clus id s
  | .copyComplete clus id => Sys2Proof.Machine.execCopyComplete clus id s
  | .latePromiseExpiry clus id => Sys2Proof.Machine.execLatePromiseExpiry clus id s
  | .cpyqfFenceComplete clus id => Sys2Proof.Machine.execCpyqfFenceComplete clus id s
  | .pendingByteDecrement idx => Sys2Proof.Machine.execPendingByteDecrement idx s
  | .remoteArrival idx => Sys2Proof.Machine.execRemoteArrival idx s
  | .remoteSignal idx => Sys2Proof.Machine.execRemoteSignal idx s
  | .messageDelivery id => Sys2Proof.Machine.execMessageDelivery id s
  | .messageAck id => Sys2Proof.Machine.execMessageAck id s
  | .ioldCompletion task status data => Sys2Proof.Machine.execIoldCompletion task status data s
  | .ioldTimeout task => Sys2Proof.Machine.execIoldTimeout task s
  | .mcasLockGrant task => Sys2Proof.Machine.execMcasLockGrant task s
  | .dirRead clus line => Sys2Proof.Machine.execDirRead clus line s
  | .dirReadForOwnership clus line => Sys2Proof.Machine.execDirReadForOwnership clus line s
  | .dirUpgrade clus line => Sys2Proof.Machine.execDirUpgrade clus line s
  | .dirFarOperation clus line => Sys2Proof.Machine.execDirFarOperation clus line s
  | .dirWriteback clus line => Sys2Proof.Machine.execDirWriteback clus line s
  | .dirInvlEvict clus line => Sys2Proof.Machine.execDirInvlEvict clus line s
  | .forwardedPinAccess clus pa n wr => Sys2Proof.Machine.execForwardedPinAccess clus pa n wr s
  | .updatePush clus pa n data => Sys2Proof.Machine.execUpdatePush clus pa n data s
  | .routerCycle router => Sys2Proof.Machine.execRouterCycle router s
  | .flitArrival idx => Sys2Proof.Machine.execFlitArrival idx s
  | .throttleWindow clus => Sys2Proof.Machine.execThrottleWindow clus s
  | .slfoldWrite v => Sys2Proof.Machine.execSlfoldWrite v s
  | .foldComplete die => Sys2Proof.Machine.execFoldComplete die s
  | .homeLossDeclare die => Sys2Proof.Machine.execHomeLossDeclare die s
  | .uetPacketReceive p => Sys2Proof.Machine.execUetPacketReceive p s
  | .uetAckReceive num answer => Sys2Proof.Machine.execUetAckReceive num answer s
  | .uetRetransmit num => Sys2Proof.Machine.execUetRetransmit num s
  | .signingComplete comp => Sys2Proof.Machine.execSigningComplete comp s
  | .deviceArrivalReport comp dev => Sys2Proof.Machine.execDeviceArrivalReport comp dev s
  | .planWritePerformed comp => Sys2Proof.Machine.execPlanWritePerformed comp s
  | .boundaryBegin comp => Sys2Proof.Machine.execBoundaryBegin comp s
  | .memberRelease comp => Sys2Proof.Machine.execMemberRelease comp s
  | .dissolvingComplete comp => Sys2Proof.Machine.execDissolvingComplete comp s
  | .abortToken comp reason => Sys2Proof.Machine.execAbortToken comp reason s
  | .cappingWindow watts => Sys2Proof.Machine.execCappingWindow watts s
  | .telemetryRefresh readings => Sys2Proof.Machine.execTelemetryRefresh readings s
  | .pldmGetSensorReading sensor => Sys2Proof.Machine.execPldmGetSensorReading sensor s
  | .pldmKilnlogRead die => Sys2Proof.Machine.execPldmKilnlogRead die s
  | .pklimitWrite watts => Sys2Proof.Machine.execPklimitWrite watts s
  | .bar2Read peer off n => Sys2Proof.Machine.execBar2Read peer off n s
  | .bar2Write peer off bytes => Sys2Proof.Machine.execBar2Write peer off bytes s
  | .hseqWrite peer mb v => Sys2Proof.Machine.execHseqWrite peer mb v s
  | .dconsWrite peer mb v => Sys2Proof.Machine.execDconsWrite peer mb v s
  | .hconsWrite mb v => Sys2Proof.Machine.execHconsWrite mb v s
  | .dseqWrite mb v => Sys2Proof.Machine.execDseqWrite mb v s
  | .msixUnmask peer vec => Sys2Proof.Machine.execMsixUnmask peer vec s
  | .mbportWrite mb peer => Sys2Proof.Machine.execMbportWrite mb peer s
  | .bootgo => Sys2Proof.Machine.execBootgo s
  | .bootVerifyDone => Sys2Proof.Machine.execBootVerifyDone s
  | .coldReset => Sys2Proof.Machine.execColdReset s
  | .warmReset => Sys2Proof.Machine.execWarmReset s
  | .pcieHotReset peer => Sys2Proof.Machine.execPcieHotReset peer s
  | .measurementAppend type digest => Sys2Proof.Machine.execMeasurementAppend type digest s
  | .attestationReport nonce => Sys2Proof.Machine.execAttestationReport nonce s
  | .devcfgWrite v => Sys2Proof.Machine.execDevcfgWrite v s
  | .dqringWrite die prio v => Sys2Proof.Machine.execDqringWrite die prio v s
  | .scopeWrite n v => Sys2Proof.Machine.execScopeWrite n v s
  | .fpflagsWrite v => Sys2Proof.Machine.execFpflagsWrite v s
  | .wheelwtWrite v => Sys2Proof.Machine.execWheelwtWrite v s
  | .wheelFootprintWrite reg v => Sys2Proof.Machine.execWheelFootprintWrite reg v s
  | .wqstatDiscard => Sys2Proof.Machine.execWqstatDiscard s
  | .cfstatAbandon => Sys2Proof.Machine.execCfstatAbandon s
  | .statusWrite v => Sys2Proof.Machine.execStatusWrite v s
  | .uetmapWrite v => Sys2Proof.Machine.execUetmapWrite v s
  | .registerWrite r v => Sys2Proof.Machine.execRegisterWrite r v s
  | .ethernetLinkChange port up => Sys2Proof.Machine.execEthernetLinkChange port up s
  | .cleanCopyDrop clus line => Sys2Proof.Machine.execCleanCopyDrop clus line s
  | .bar0MailboxWrite peer mb off bytes => Sys2Proof.Machine.execBar0MailboxWrite peer mb off bytes s

end Sys2Proof.Machine
end

