-- ==== Sys2Proof/Machine/Step.lean ====
section
/-! DEFINITION. One step of the device (assumption 1): the first turn of the agenda, or, when the agenda is empty, what
`autoTurn` gives. -/

namespace Sys2Proof.Machine

open Sys2Proof

def step (s : State) : Host.Outcome State Fault Refusal :=
  match s.agenda with
  | [] => s.autoTurn exec
  | u :: rest => State.turn exec { s with agenda := rest } u

/-- A line that holds one instruction word in slot 0, alone in its bundle, with its parity (04 R87, R88). -/
def lineWith (w : Nat) : List Byte :=
  let body := natBytes (w % 2 ^ 96) 12 ++ List.replicate 48 0
  let lw0 := 2 ^ 5 + 1
  let p := fun h => if parityOf 48 ((BitVec.ofNat 96 w).toNat / 2 ^ (48 * h)) then 2 ^ (9 + h) else 0
  let lw1 := lw0 + p 0 + p 1
  body ++ natBytes (lw1 + (if parityOf 19 lw1 then 2 ^ 19 else 0)) 4

/-- The frame in which the next instruction's task runs when no task is current, and the line of its code. -/
def fetchFrame : Nat := 0xE000000000 / 8192
def fetchAt : Nat := 0x10000

/-- The state with one instruction stored where the next step fetches it (see assumption 29): a line at the current
task's PC, or, when no task is current, a domain-0 task on tile 0; its turn is the next of the agenda. -/
def State.withFetchWord (s : State) (_nbits w : Nat) : State :=
  match s.task? s.cur with
  | some x =>
    { s with
      mem := s.mem.write (alignDown x.pc.toNat 64) (lineWith w)
      agenda := { dt := 1, act := .issue s.cur true } :: s.agenda }
  | none =>
    let (party, s1) := s.newParty
    let x : Task := { Task.blank with pc := BitVec.ofNat 64 fetchAt, party := party }
    { s1 with
      mem := s.mem.write fetchAt (lineWith w)
      tasks := s.tasks.set fetchFrame x
      cur := fetchFrame
      agenda := { dt := 1, act := .issue fetchFrame true } :: s.agenda }

end Sys2Proof.Machine
end

