-- ==== Sys2Proof/Safety.lean ====
section
/-! DEFINITION. The terms that claims use: what a safe run is, when an instruction runs, and what reading and writing an
operand mean (01 R17-R22, 04 R102, 06 R137). -/

namespace Sys2Proof.Machine

open Sys2Proof

/-- The canonical form of the device memory and of the memories of the units. -/
def State.memOk (s : State) : Bool :=
  s.mem.wf && s.uetTable.wf && s.cluss.all (fun p => p.2.wheel.bat.wf && p.2.wheel.rib.wf)
    && s.mboxes.all fun p => p.2.data.wf

/-- A step goes on. -/
def Goes (o : Host.Outcome State Fault Refusal) : Prop := ∃ t, o = .next t

/-- A safe run of `n` steps ends in a next state. -/
def SafeRun (n : Nat) (s : State) : Prop := Goes (core.run n s)

/-- An instruction outside a U group runs: the current task is live and the predicate is true (02 R43, 04 R102). -/
def Runs (s : State) (hd : Hd) : Prop := s.ready = true ∧ (s.pred hd).getLsbD 0 = true ∧ hd.u = false

/-- An instruction has completed with effect `t`. -/
def ended (t : State) : State := t.setFate .done

/-- The instruction of the current task completes and its effect is `t`. -/
def Completes (i : Instr) (s t : State) : Prop := exec i s = .next (ended t)

/-- The instruction of opcode `opc` takes the exception `tr` and has no other effect (21 R398). -/
def Traps (i : Instr) (s : State) (opc : Nat) (tr : Trap) : Prop := exec i s = .next (s.takeTrap s tr false opc)

/-! Operands. -/

/-- A source can be read: only an empty q register makes its reader stall (01 R22). -/
def canRead (s : State) : Reg → Prop
  | .q n => s.me.qlist n ≠ []
  | _ => True

/-- The value of a source: s0 reads 0, and a q register gives its oldest entry (01 R19, R22). -/
def valueOf (s : State) : Reg → Word
  | .s n => if n = 0 then 0 else s.me.s[n.toNat]
  | .m n => s.me.m[n.toNat]
  | .q n => (s.me.qlist n).headD 0
  | .v _ => 0
  | .k n => (s.me.kreg n).setWidth 64

/-- The state after a source is read: a q register loses that entry. -/
def afterRead (s : State) : Reg → State
  | .q n => s.upd fun t => t.setQ n (t.qlist n).tail
  | _ => s

/-- A destination can be written: only a full q register makes its writer stall (01 R22). -/
def canWrite (s : State) : Reg → Prop
  | .q n => (s.me.qlist n).length < qDepth n
  | _ => True

/-- The state after a destination is written: a write of s0 is discarded, a write of an m register clears its full bit
and is followed by its refill (01 R19, R21, R22). -/
def afterWrite (s : State) (r : Reg) (v : Word) : State :=
  match r with
  | .s n => s.upd fun t => if n = 0 then t else { t with s := t.s.set n.toNat v }
  | .m n => s.upd fun t => t.writeM n.toNat v
  | .q n => s.upd fun t => t.setQ n (t.qlist n ++ [v])
  | _ => s

/-- Reading `r` gives `v` and leaves `t`. -/
def Reads (s : State) (r : Reg) (v : Word) (t : State) : Prop :=
  canRead s r ∧ v = valueOf s r ∧ t = afterRead s r

/-- Writing `v` to `r` leaves `t`. -/
def Writes (s : State) (r : Reg) (v : Word) (t : State) : Prop := canWrite s r ∧ t = afterWrite s r v

/-- Operand b of a scalar instruction: the immediate, or a source (06 R137). -/
def ReadsB (s : State) (f : ScF) (v : Word) (t : State) : Prop :=
  if f.ib then v = scImmB f ∧ t = s else Reads s f.b v t

/-- A taken transfer: the target and the kind that the branch trace records (06 R153, 21 R417). -/
def goesTo (s : State) (pc : Word) (kind : Nat) : State := { s with cx := { s.cx with target := some (pc, kind) } }

/-- The BR instructions, with the relation of each on the values of a and b (06 R154). -/
def branches (a b : Word) : List ((FbF → Instr) × Bool) :=
  [(.brEq, decide (a = b)), (.brNe, decide (a ≠ b)),
   (.brLtZ64, decide (a.toNat < b.toNat)), (.brLtI64, decide (a.toInt < b.toInt)),
   (.brGeZ64, decide (b.toNat ≤ a.toNat)), (.brGeI64, decide (b.toInt ≤ a.toInt)),
   (.brLeZ64, decide (a.toNat ≤ b.toNat)), (.brLeI64, decide (a.toInt ≤ b.toInt)),
   (.brGtZ64, decide (b.toNat < a.toNat)), (.brGtI64, decide (b.toInt < a.toInt))]

/-! Memory operands. -/

/-- eff_addr (07 R159). -/
def memAddr (s : State) (f : MemF) : Word := valueOf s f.a + f.imm.signExtend 64

/-- The data access of a load or store of `n` bytes (07 R160, R161). -/
def dataAcc (va : Word) (n : Nat) (wr : Bool) : Acc := { va := va, n := n, al := n, wr := wr, ctl := true }

/-- The atomic access of a load or store of `n` bytes (07 R165). -/
def atomAcc (va : Word) (n : Nat) (wr : Bool) (acq : Option ScopeInst := none) : Acc :=
  { va := va, n := n, al := n, wr := wr, data := false, ctl := true, acq := acq }

/-- The access of an AMO or CAS of `n` bytes (07 R172, R175). -/
def rmwAcc (va : Word) (n order : Nat) (inst : ScopeInst) : Acc :=
  { va := va, n := n, al := n, wr := true, data := false, acq := acqInst order inst }

/-- The witness of an atomic access by the current task (11 R301). -/
def atomWit (s : State) (wr : Bool) : Wit :=
  { party := s.me.party, epoch := Clock.at s.accClk s.me.party, wr := wr, data := false }

/-- An atomic operation that writes, or with `wr` false only reads, passes the checks of 07 R161 at `pa`: on a checked page no
access that has not happened before it conflicts with it, and no word of it is poisoned. -/
def RmwGoes (s : State) (va : Word) (n order : Nat) (inst : ScopeInst) (wr : Bool) (pa : Nat) (tr : Tr) : Prop :=
  ({ s with wit := [] } : State).check s.whoMe (rmwAcc va n order inst) = .ok pa tr
    ∧ (tr.chk = true →
        s.conflictsAt pa n s.me.party (Clock.join s.accClk (s.acqAt pa n (acqInst order inst) s.myTile)) wr false = []
          ∧ s.shadowFull pa n (atomWit s wr) = false)
    ∧ ∀ w ∈ wordsOf pa n, w ∉ s.poison

/-- A number of `n` bytes in a register, sign-extended under SGN (07 R165). -/
def extended (sgn : Bool) (n v : Nat) : Word := if sgn then BitVec.ofInt 64 (sint (8 * n) v) else BitVec.ofNat 64 v

/-- The AMO instructions, with the operation of each on `n`, the old value and the operand (07 R172). -/
def amoOps : List ((MemF → Instr) × (Nat → Nat → Nat → Nat)) :=
  [(.amoAdd, fun _ o y => o + y), (.amoAnd, fun _ o y => o &&& y), (.amoOr, fun _ o y => o ||| y),
   (.amoXor, fun _ o y => o ^^^ y),
   (.amoSmin, fun n o y => if sint (8 * n) o ≤ sint (8 * n) y then o else y),
   (.amoSmax, fun n o y => if sint (8 * n) o ≤ sint (8 * n) y then y else o),
   (.amoZmin, fun _ o y => if o ≤ y then o else y), (.amoZmax, fun _ o y => if o ≤ y then y else o),
   (.amoSwap, fun _ _ y => y), (.amoFaddFp32, fun _ o y => amoFadd o y), (.amoFmaxFp32, fun _ o y => amoFmax o y)]

/-- A source of CAS: `n` bytes of a register, or for 16 bytes a register and the next (07 R175). -/
def ReadsPair (s : State) (r : Reg) (n v : Nat) (t : State) : Prop :=
  if n = 16 then ∃ lo hi s1, Reads s r lo s1 ∧ Reads s1 (regNext r) hi t ∧ v = lo.toNat + hi.toNat * 2 ^ 64
  else ∃ lo, Reads s r lo t ∧ v = lo.toNat % 2 ^ (8 * n)

/-- The instruction has entered a restartable wait (02 R64). -/
def State.setHeld (s : State) : State := s.setFate .held

/-! The vector family's operations (08 R194, R200, R201), on values and flags or on element codes. -/

def roundedUnary : List ((VecF → Instr) × (XV → XV × Flags)) :=
  [(.vsqrt, XV.sqrt), (.vrcp, XV.rcp), (.vrsq, XV.rsq), (.vexp2, XV.exp2), (.vlog2, XV.log2)]

/-- The sign of an exact zero sum depends on the rounding mode (05 R124). -/
def roundedBinary (rnd : Nat) : List ((VecF → Instr) × (XV → XV → XV × Flags)) :=
  [(.vadd, fun x y => XV.add rnd x y), (.vsub, fun x y => XV.add rnd x y.neg), (.vmul, fun x y => XV.mul x y),
   (.vdiv, fun x y => XV.div x y)]

def roundedTernary (rnd : Nat) : List ((VecF → Instr) × (XV → XV → XV → XV × Flags)) :=
  [(.vfma, fun x y z => XV.fma rnd x y z), (.vfms, fun x y z => XV.fma rnd x y z.neg),
   (.vfnma, fun x y z => XV.fma rnd x.neg y z)]

def vectorIntOps (c : Nat) (sat high : Bool) : List ((VecF → Instr) × (Nat → Nat → Int)) :=
  let w := fmtWidth c
  [(.viadd, fun x y => vecSat c sat (intEl c x + intEl c y)), (.visub, fun x y => vecSat c sat (intEl c x - intEl c y)),
   (.vimul, fun x y => if high then (intEl c x * intEl c y).fdiv (2 ^ w) else intEl c x * intEl c y),
   (.vimin, fun x y => if intEl c x ≤ intEl c y then intEl c x else intEl c y),
   (.vimax, fun x y => if intEl c x ≤ intEl c y then intEl c y else intEl c x),
   (.vand, fun x y => ((x &&& y : Nat) : Int)), (.vor, fun x y => ((x ||| y : Nat) : Int)),
   (.vxor, fun x y => ((x ^^^ y : Nat) : Int)),
   (.vshl, fun x y => ((x * 2 ^ (y % w) : Nat) : Int)), (.vshr, fun x y => ((x / 2 ^ (y % w) : Nat) : Int)),
   (.vsar, fun x y => (sint w x).fdiv (2 ^ (y % w)))]

/-! Encoding. -/

/-- The opcode map: the groups with their assigned functions (04 R105). -/
def opcodeMap : List (Nat × List Nat) :=
  [(0x00, List.range 10), (0x01, List.range 10), (0x02, List.range 9), (0x04, List.range 5), (0x05, List.range 2),
   (0x06, [0x00, 0x01, 0x10, 0x12, 0x14, 0x15, 0x16, 0x17, 0x18, 0x19, 0x1A, 0x1B]), (0x07, List.range 5),
   (0x08, List.range 4), (0x09, List.range 4), (0x0A, List.range 2), (0x0C, List.range 11), (0x0D, List.range 3),
   (0x0E, List.range 2), (0x10, List.range 11), (0x11, List.range 7), (0x12, List.range 3), (0x13, List.range 3),
   (0x18, List.range 5), (0x19, List.range 6), (0x1C, List.range 5), (0x1D, List.range 9), (0x1E, List.range 7),
   (0x1F, List.range 4), (0x20, List.range 4), (0x21, List.range 3), (0x22, List.range 4), (0x23, List.range 4),
   (0x24, List.range 3), (0x25, List.range 1), (0x26, List.range 8), (0x27, List.range 4), (0x28, List.range 6),
   (0x29, List.range 5), (0x3C, List.range 4), (0x3D, List.range 4), (0x3F, [0x3F])]

/-! Steps. -/

/-- The turn of task `t` issues its next bundle: it runs, and nothing of it is awaited, pending or held back
(02 R43, R64; 21 R400, R415). -/
def State.issues (s : State) (t : Nat) (x : Task) : Prop :=
  s.task? t = some x ∧ x.live = true ∧ x.mcas = none ∧ x.nextPend = none ∧ x.run ≠ .exiting ∧ waitKind x.wait = 0
    ∧ (x.hm = true ∨ x.joinRec = none) ∧ (x.stepping = false ∨ x.hm = true) ∧ x.yielded = false

/-- The scalar instructions of F3 that write a register (06 R142 to R151). -/
def scalarOps : List (ScF → Instr) :=
  [.add, .sub, .mul, .mulh, .mad, .div, .rem, .min, .max, .and, .or, .xor, .andn, .orn, .shl, .shr, .sar, .rol, .ror,
   .clz, .ctz, .popc, .brev, .bswap, .set, .sel, .sext, .zext, .lea, .bfx, .bfi, .zord, .zdec, .mov]

/-- The task of a state is changed in nothing but its s, k, m and q registers: control, status, flags, waits and what is
outstanding stay. -/
def Task.sameButRegs (x y : Task) : Prop :=
  y = { x with s := y.s, k := y.k, m := y.m, full := y.full, mclk := y.mclk, mbox := y.mbox, q := y.q }

/-- Nothing changes outside the current task's record and the surroundings of its instruction. -/
def State.sameButMe (s t : State) : Prop :=
  t = { s with tasks := t.tasks, cx := t.cx, parked := t.parked } ∧ ∀ n, n ≠ s.cur → t.task? n = s.task? n

/-- The V-class instructions that compute or load, and write one v, k or q register (08 R194 to R206). -/
def vectorRegOps : List (VecF → Instr) :=
  [.vadd, .vsub, .vmul, .vfma, .vfms, .vfnma, .vmin, .vmax, .vabs, .vneg, .vabsmax, .vdiv, .vsqrt, .vrcp, .vrsq, .vexp2,
   .vlog2, .vscale, .vclass, .vcmp, .vsel, .vcvt, .vqnt, .vqntSout, .vdqnt, .viadd, .visub, .vimul, .vimin, .vimax, .vand,
   .vor, .vxor, .vshl, .vshr, .vsar, .vld, .vlds, .vgath, .vbcast, .vext, .vins, .vperm, .vshuf, .viota, .vred, .vscan,
   .vmov, .kand, .kor, .kxor, .knot, .kpop, .kfirst, .kmov]

/-- The memory instructions that store nothing (07); WBL may write a frame's line back. -/
def noStoreOps : List (MemF → Instr) := [.ld, .ldp, .pref, .invl, .pin, .unpin, .fence, .iold, .iost]

/-- What an instruction of the I-stream does not write: the v and k registers, FPFLAGS, STATUS, the handler's registers
and the PC. -/
def Task.keepsVector (x y : Task) : Prop :=
  y.v = x.v ∧ y.k = x.k ∧ y.fpflags = x.fpflags ∧ y.status = x.status ∧ y.pc = x.pc ∧ y.ipc = x.ipc ∧ y.vpc = x.vpc
    ∧ y.faultinfo = x.faultinfo ∧ y.faultaddr = x.faultaddr

/-- The instructions of the engines that leave memory and the other tasks' registers alone (10 R249 to R281): all but JOIN
and ABORT. -/
def engineOps : List (EngF → Instr) :=
  [.cpy, .cpyr, .cpyqf, .sleept, .cinit, .arrive, .arriveW, .arriveRmt, .expect, .cwait, .ctest, .evsig, .evsigRmt, .mutexl,
   .mutexu, .msend, .mtake, .mpeek, .mwaitf, .spawn, .gang, .rinit, .rtake, .tself, .sign, .step, .dissolve, .ckpt]

/-- What an instruction of the engines does not write: the v and k registers, FPFLAGS, the handler's registers and the PC. -/
def Task.keepsControl (x y : Task) : Prop :=
  y.v = x.v ∧ y.k = x.k ∧ y.fpflags = x.fpflags ∧ y.pc = x.pc ∧ y.ipc = x.ipc ∧ y.vpc = x.vpc
    ∧ y.faultinfo = x.faultinfo ∧ y.faultaddr = x.faultaddr

/-- The registers of 01 R17 are the same. -/
def Task.sameRegs (x y : Task) : Prop := y.s = x.s ∧ y.v = x.v ∧ y.k = x.k ∧ y.m = x.m ∧ y.full = x.full ∧ y.q = x.q

/-- The device's own registers are the same (01 R26, 20 R385). -/
def State.keepsDevice (s t : State) : Prop :=
  t.devset = s.devset ∧ t.devnum = s.devnum ∧ t.fabthr = s.fabthr ∧ t.cohctl = s.cohctl ∧ t.slfold = s.slfold
    ∧ t.uetcfg = s.uetcfg ∧ t.uetrto = s.uetrto ∧ t.uetretry = s.uetretry ∧ t.uetmap = s.uetmap

/-- Memory is unchanged outside `n` bytes at `pa`. -/
def State.storesOnly (s t : State) (pa n : Nat) : Prop := ∀ a, (a < pa ∨ pa + n ≤ a) → t.mem.get a = s.mem.get a

/-! The Wheel and the engines. -/

/-- The Wheel commands of a tile's own queue, each with the checks of its operands (09 R231 to R245). -/
def wheelForms (f : WhF) : List (Instr × (Word → Word → Word → WPlan)) :=
  [(.mldb f, planMldb f), (.mldc f, planMldc f), (.mknot f, planMknot f), (.mlds f, planMlds f), (.mma f, planMma f),
   (.mspl f, fun _ _ c => planSpline f 0 c), (.msdx f, fun _ _ c => planSpline f 16 c),
   (.msgrad f, fun _ _ c => planMsgrad f c), (.mrefine f, fun _ _ c => planMrefine f c),
   (.mzeroSag f, fun _ _ c => planZeroSag c), (.mzeroBat f, fun _ _ c => planZeroBat f c),
   (.mzeroRib f, fun _ _ c => planZeroRib f c), (.mrd f, fun _ b c => planMrd f (f.x.getLsbD 0) true b c),
   (.mwr f, fun _ b c => planMrd f false false b c), (.mstat f, fun _ _ _ => { al := 64, wr := true, ok := true })]

/-- The command that instruction `i` puts into the queues (09 R218, R237). -/
def State.wheelCmd (s : State) (i : Instr) (a b c : Word) : WCmd :=
  let x : WCmd :=
    { id := s.nextId, task := s.cur, pc := s.cx.pc, ins := i, a := a, b := b, c := c, clk := s.me.clk, asked := none,
      granted := false, damp := 0, parts := [], begun := [], flags := 0, clus := s.myClus, dom := s.myDom, tile := s.myTile,
      party := s.me.party }
  { x with parts := x.cluss }

/-- An address operand passes its checks: below 2^55, and aligned (07 R161 steps 1 and 2). -/
def addrGood (va : Word) (al : Nat) : Prop := al = 0 ∨ (va.toNat < 2 ^ 55 ∧ va.toNat % al = 0)

/-- A timeout operand: with TMO the value of c, without it none (10 R260, R270). -/
def ReadsDeadline (s : State) (f : EngF) (d : Option Word) (t : State) : Prop :=
  if f.tmo then ∃ v, Reads s f.c v t ∧ d = some v else d = none ∧ t = s

/-- Room for one more copy in the tile and in the cluster (10 R253). -/
def State.copyFits (s : State) : Prop :=
  ((s.clus s.myClus).copies.filter fun c => c.tile == s.myTile).length < 128
    ∧ (s.clus s.myClus).copies.length + s.planInFlight s.myClus < 1024

/-- The late-promise guard of 14 R349 on a copy of `flits` flits. -/
def promiseAt (now prev : Word) (flits level extra : Nat) (heavy : Bool) : Nat :=
  Nat.max now.toNat prev.toNat + (72 * flits + (8 - level) - 1) / (8 - level) + 16384 + extra + (if heavy then 4096 else 0)

/-- A release is made, or with RLX none: what it publishes and the state after it (10 R264). -/
def Releases (s : State) (rlx : Bool) (k : Clock) (t : State) : Prop :=
  if rlx then k = [] ∧ t = s else s.relWait = false ∧ k = s.me.clk ∧ t = (s.release s.cur).2

/-- One arrival at a barrier cone that registers `n` bytes: the last one, with no byte pending, completes the phase
(10 R263). -/
def Cone.arrived (c : Cone) (n : Nat) (d : Cone) : Prop :=
  d.e = c.e ∧ d.mode = c.mode ∧ d.dom = c.dom ∧ d.init = c.init ∧ d.pb = c.pb + n
    ∧ (if c.a + 1 = c.e ∧ c.pb + n = 0 then d.a = 0 ∧ d.phase = !c.phase ∧ d.waiters = []
       else d.a = c.a + 1 ∧ d.phase = c.phase ∧ d.waiters = c.waiters)

/-! Events (assumption 1). -/

/-- An event of another agent happens: `i` takes the device from `s` to `t`. -/
def Acts (i : Instr) (s t : State) : Prop := exec i s = .next t

/-- Event `i` changes the record of task `t` to one with property `p`. -/
def ActsOn (i : Instr) (s : State) (t : Nat) (p : State → Task → Prop) : Prop :=
  ∃ u y, Acts i s u ∧ u.task? t = some y ∧ p u y

end Sys2Proof.Machine
end

