-- ==== Sys2Proof/Certificates/Slice0/Obligations.lean ====
section
/-! DEFINITION. The statements about the model, for the provers. -/

open Sys2Proof Sys2Proof.Machine

/-! The scalar family (06). -/

/-- 06 R143: ADD, SUB, MUL, MULH, DIV, REM, MIN, MAX and MAD complete, and write the register image of the exact result, which is
(06 R137) the value of the type's range that differs from it by a multiple of 2^w. -/
def Obligations.ArithmeticResults : Prop :=
  ∀ (f : ScF) (s s1 s2 : State) (a b : Word), Runs s f.hd → Reads s f.a a s1 → ReadsB s1 f b s2 →
    let x := ival a f.ty
    let y := ival b f.ty
    let gives : (ScF → Instr) → Int → Prop := fun i r => ∀ t, Writes s2 f.d (tfit r f.ty) t → Completes (i f) s t
    gives .add (x + y)
      ∧ gives .sub (x - y)
      ∧ gives .mul (x * y)
      ∧ gives .mulh ((x * y).fdiv (2 ^ tyW f.ty))
      ∧ gives .div (if y = 0 then -1 else x.tdiv y)
      ∧ gives .rem (if y = 0 then x else x - y * x.tdiv y)
      ∧ gives .min (if x ≤ y then x else y)
      ∧ gives .max (if x ≤ y then y else x)
      ∧ (∀ c s3 t, Reads s2 f.c c s3 → Writes s3 f.d (tfit (x * y + ival c f.ty) f.ty) t → Completes (.mad f) s t)
      ∧ ∀ r : Int,
        let w := tyW f.ty
        let v := ival (tfit r f.ty) f.ty
        (w = 8 ∨ w = 16 ∨ w = 32 ∨ w = 64) ∧ (v - r) % 2 ^ w = 0
          ∧ (if tySigned f.ty then -2 ^ (w - 1) ≤ v ∧ v < 2 ^ (w - 1) else 0 ≤ v ∧ v < 2 ^ w)
          ∧ tfit r f.ty = BitVec.ofInt 64 v

/-- 06 R145: the logic and shift instructions complete, and work on the patterns of the type's width. -/
def Obligations.LogicResults : Prop :=
  ∀ (f : ScF) (s s1 s2 : State) (a b : Word), Runs s f.hd → Reads s f.a a s1 → ReadsB s1 f b s2 →
    let w := tyW f.ty
    let x := a.toNat % 2 ^ w
    let y := b.toNat % 2 ^ w
    let sh := b.toNat % w
    let gives : (ScF → Instr) → Int → Prop := fun i r => ∀ t, Writes s2 f.d (tfit r f.ty) t → Completes (i f) s t
    gives .and ((x &&& y : Nat) : Int)
      ∧ gives .or ((x ||| y : Nat) : Int)
      ∧ gives .xor ((x ^^^ y : Nat) : Int)
      ∧ gives .andn ((x &&& (2 ^ w - 1 - y) : Nat) : Int)
      ∧ gives .orn ((x ||| (2 ^ w - 1 - y) : Nat) : Int)
      ∧ gives .shl ((x * 2 ^ sh : Nat) : Int)
      ∧ gives .shr ((x / 2 ^ sh : Nat) : Int)
      ∧ gives .sar ((if 2 ^ (w - 1) ≤ x then (x : Int) - 2 ^ w else x).fdiv (2 ^ sh))
      ∧ gives .rol (((x * 2 ^ sh + x / 2 ^ (w - sh)) % 2 ^ w : Nat) : Int)
      ∧ gives .ror (((x / 2 ^ sh + x * 2 ^ (w - sh)) % 2 ^ w : Nat) : Int)

/-- 06 R147: CLZ, CTZ, POPC, BREV and BSWAP complete; their results are told by the bits of the source. SET, SEL, SEXT
and ZEXT complete with theirs. -/
def Obligations.CountingResults : Prop :=
  ∀ (f : ScF) (s s1 s2 : State) (a b : Word), Runs s f.hd → Reads s f.a a s1 → ReadsB s1 f b s2 →
    let w := tyW f.ty
    let x := a.toNat % 2 ^ w
    let bit := fun (i : Nat) => x.testBit i
    let one : (ScF → Instr) → Int → Prop := fun i r => ∀ t, Writes s1 f.d (tfit r f.ty) t → Completes (i f) s t
    one .clz ((List.range w).takeWhile fun i => !bit (w - 1 - i)).length
      ∧ one .ctz ((List.range w).takeWhile fun i => !bit i).length
      ∧ one .popc ((List.range w).filter bit).length
      ∧ (∀ r : Nat, r < 2 ^ w → (∀ i, i < w → r.testBit (w - 1 - i) = bit i) → one .brev r)
      ∧ (∀ r : Nat, r < 2 ^ w → (∀ i, i < w → r.testBit (8 * (w / 8 - 1 - i / 8) + i % 8) = bit i) → one .bswap r)
      ∧ one .sext (ival a f.ty)
      ∧ one .zext (ival a f.ty)
      ∧ (∀ t, Writes s2 f.d (if condHolds f.cond.toNat (ival a f.ty) (ival b f.ty) then 1 else 0) t →
          Completes (.set f) s t)
      ∧ ∀ c s3 t, Reads s2 f.c c s3 → Writes s3 f.d (if c = 0 then b else a) t → Completes (.sel f) s t

/-- 06 R148, R149, R150: LEA completes with base + idx × 2^SH + displacement; BFX and BFI complete with a result told by its
bits; ZORD composes a Z-order position and ZDEC finds the coordinates that compose it. -/
def Obligations.AddressFieldResults : Prop :=
  ∀ (f : ScF) (s s1 : State) (a : Word), Runs s f.hd → Reads s f.a a s1 →
    (∀ idx s2 t, Reads s1 f.b idx s2 →
        let disp : Int := if f.iz then f.imm.toNat else f.imm.toInt
        Writes s2 f.d (BitVec.ofInt 64 (a.toNat + idx.toNat * 2 ^ (f.x.toNat % 8) + disp)) t → Completes (.lea f) s t)
      ∧ (∀ b s2, ReadsB s1 f b s2 →
        let pos := b.toNat % 64
        let len := Nat.min (b.toNat / 256 % 128) 64
        (∀ t (r : Word),
            (∀ i, i < 64 → r.getLsbD i =
              (if i < len then a.getLsbD (pos + i)
               else f.ty == 3 && len != 0 && a.getLsbD (pos + len - 1))) →
            Writes s2 f.d r t → Completes (.bfx f) s t)
          ∧ ∀ c s3 t (r : Word), Reads s2 f.c c s3 →
            (∀ i, i < 64 → r.getLsbD i = (if pos ≤ i ∧ i < pos + len then c.getLsbD (i - pos) else a.getLsbD i)) →
            Writes s3 f.d r t → Completes (.bfi f) s t)
      ∧ (let m := f.x.toNat / 64
        let n := f.x.toNat / 4 % 16
        let tr := f.x.getLsbD 1
        (∀ b s2 t, Reads s1 f.b b s2 → f.ib = false →
            Writes s2 f.d (BitVec.ofNat 64
              (if tr then zorderOffset (b.toNat % 2 ^ m) (a.toNat % 2 ^ n) m n
               else zorderOffset (a.toNat % 2 ^ m) (b.toNat % 2 ^ n) m n)) t →
            Completes (.zord f) s t)
          ∧ (WellFormed (.zdec f) = true → ∀ row col t, row < 2 ^ m → col < 2 ^ n →
              zorderOffset row col m n = a.toNat % 2 ^ (m + n) →
              Writes s1 f.d (BitVec.ofNat 64 (if tr then col + row * 2 ^ 32 else row + col * 2 ^ 32)) t →
              Completes (.zdec f) s t))

/-- 06 R151, R152, R157: MOV copies between registers and between the halves of k registers; LI writes its immediate, NOP has no
effect, YIELD gives up the next grant, and EXIT begins to drain. That a task that drains stays at its EXIT is the choice of
assumption 72. -/
def Obligations.PlainResults : Prop :=
  ∀ (f : ScF) (s : State), Runs s f.hd →
    let lo := if f.x.getLsbD 0 then 64 else 0
    (∀ n m, f.d = .k n → f.a = .k m →
        Completes (.mov f) s (s.upd fun t => if n = 0 then t else { t with k := t.k.set n.toNat (s.me.kreg m) }))
      ∧ (∀ n v s1 (x : KReg), f.d = .k n → f.a.isK = false → Reads s f.a v s1 →
          (∀ i, i < 128 → x.getLsbD i =
            (if lo ≤ i ∧ i < lo + 64 then v.getLsbD (i - lo) else (s1.me.kreg n).getLsbD i)) →
          Completes (.mov f) s (s1.upd fun t => if n = 0 then t else { t with k := t.k.set n.toNat x }))
      ∧ (∀ m t, f.d.isK = false → f.a = .k m → Writes s f.d ((s.me.kreg m).extractLsb' lo 64) t →
          Completes (.mov f) s t)
      ∧ (∀ v s1 t, f.d.isK = false → f.a.isK = false → Reads s f.a v s1 → Writes s1 f.d v t → Completes (.mov f) s t)
      ∧ (∀ (g : FlF) t, Runs s g.hd → Writes s g.d g.imm t → Completes (.li g) s t)
      ∧ Completes (.nop f) s s
      ∧ Completes (.yield f) s (s.upd fun t => { t with yielded := true })
      ∧ Completes (.exit f) s (s.upd fun t => { t with run := .exiting, pc := s.cx.pc })

/-! Control transfers and exceptions (06, 21). -/

/-- 06 R154, R155: JMP, CALL, LOOP, the ten BR, JR and RET complete; a transfer is noted with its target, to take effect
after the bundle; JR writes its link after its source is read. That the branch trace takes a JR for a jump where it links to s0
and for a call where it links to another register is the choice of assumption 30. -/
def Obligations.ControlTransfers : Prop :=
  ∀ s : State,
    (∀ f : FbF, Runs s f.hd →
      let tgt := BitVec.ofInt 64 (s.cx.pc.toNat / 64 * 64 + 64 * f.off.toInt + 12 * f.slot.toNat)
      (tgt.toNat < 2 ^ 55 →
          Completes (.jmp f) s (goesTo s tgt 0)
            ∧ ∀ t, Writes (goesTo s tgt 1) f.a s.cx.next t → Completes (.call f) s t)
        ∧ (∀ v s1 t, Reads s f.a v s1 → (v = 1 ∨ tgt.toNat < 2 ^ 55) →
            Writes (if v = 1 then s1 else goesTo s1 tgt 0) f.a (v - 1) t → Completes (.loop f) s t)
        ∧ ∀ a b s1 s2, Reads s f.a a s1 → Reads s1 f.b b s2 → ∀ p ∈ branches a b,
            if p.2 then tgt.toNat < 2 ^ 55 → Completes (p.1 f) s (goesTo s2 tgt 0) else Completes (p.1 f) s s2)
      ∧ ∀ (f : ScF) a s1, Runs s f.hd → Reads s f.a a s1 → a.toNat < 2 ^ 55 →
          (∀ t, Writes (goesTo s1 a (if f.d = .s 0 then 0 else 1)) f.d s1.cx.next t → Completes (.jr f) s t)
            ∧ Completes (.ret f) s (goesTo s1 a 2)

/-- 04 R95, 06 R156, 04 R94: a transfer to an address with a nonzero bit in [63:55] takes the address fault with that
address; TRAPI takes the software trap with imm32, and opcode 0xFFF the illegal-instruction trap with detail 5. That
FAULTADDR of the address fault is the target is the choice of assumption 87. -/
def Obligations.ControlTraps : Prop :=
  ∀ s : State,
    (∀ (f : FbF), Runs s f.hd →
        let tgt := BitVec.ofInt 64 (s.cx.pc.toNat / 64 * 64 + 64 * f.off.toInt + 12 * f.slot.toNat)
        2 ^ 55 ≤ tgt.toNat →
          Traps (.jmp f) s 0x180 { cause := 5, addr := tgt } ∧ Traps (.call f) s 0x180 { cause := 5, addr := tgt }
            ∧ (∀ v s1, Reads s f.a v s1 → v ≠ 1 → Traps (.loop f) s 0x181 { cause := 5, addr := tgt })
            ∧ ∀ a b s1 s2, Reads s f.a a s1 → Reads s1 f.b b s2 → ∀ p ∈ branches a b, p.2 = true →
                ∃ opc, (encode (p.1 f)).map opcOf = some (BitVec.ofNat 12 opc)
                  ∧ Traps (p.1 f) s opc { cause := 5, addr := tgt })
      ∧ (∀ (f : ScF) a s1, Runs s f.hd → Reads s f.a a s1 → 2 ^ 55 ≤ a.toNat →
          Traps (.jr f) s 0x1C0 { cause := 5, addr := a } ∧ Traps (.ret f) s 0x1C1 { cause := 5, addr := a })
      ∧ (∀ f : ScF, Runs s f.hd → Traps (.trapi f) s 0x1C2 { cause := 0x1E, info := some f.imm })
      ∧ ∀ rest, s.ready = true →
          Traps (.illegalOpcodeFff rest) s 0xFFF { cause := 1, detail := 5, addr := s.cx.pc }

/-- 21 R395, R398: a vectored cause outside handler mode, whose vector entry names a handler that may be entered, saves the
program point and the cause, saves and empties the V-stream queue, sets HM and goes to the handler; FAULTINFO holds a cause in
the fields of 21 R395. A cause of the V-stream comes when no bundle of the task stands between its effect and its completion
(assumption 1); VPC with an empty queue is that of assumption 27. -/
def Obligations.ExceptionEntry : Prop :=
  ∀ (s s0 s1 : State) (tr : Trap) (keep : Bool) (opc : Nat) (x : Task) (pc : Word) (checked : Bool),
    let i := (tr.info' s.cx.vs opc).toNat
    (tr.cause < 256 → tr.detail < 256 → tr.level < 4 → opc < 2 ^ 12 →
      i / 2 ^ 56 = tr.cause ∧ i / 2 ^ 48 % 256 = tr.detail
        ∧ (i.testBit 47 = s.cx.vs) ∧ (i.testBit 46 = tr.w) ∧ (i.testBit 45 = tr.pw) ∧ i.testBit 44 = false
        ∧ i / 2 ^ 42 % 4 = tr.level ∧ i / 2 ^ 32 % 2 ^ 10 = 0
        ∧ i % 2 ^ 32 = (tr.info.map (·.toNat)).getD opc)
    ∧ (s.task? s.cur = some x → bit1 x.status 0 = false → tr.cause < 0x30 →
      (s.cx.vs = true → x.midBundle = false ∧ x.wake = none) →
      (s.dropMcas s.cur).vectorEntry s.cur tr.cause = .go pc checked s1 →
      ∀ y, s1.task? s.cur = some y →
      ∃ z, (s.takeTrap s0 tr keep opc).task? s.cur = some z
        ∧ z.pc = pc
        ∧ z.ipc = (if s.cx.vs then x.pc else if tr.cause = 0x1E then s.cx.next else s.cx.first)
        ∧ z.vpc = s.vpcOf s.cur (if s.cx.vs then x.pc else if tr.cause = 0x1E then s.cx.next else s.cx.first)
        ∧ z.faultinfo = tr.info' s.cx.vs opc
        ∧ z.faultaddr = tr.addr
        ∧ z.status = setBit y.status 0 true
        ∧ z.saved = y.vq
        ∧ z.vq = []
        ∧ z.s = y.s ∧ z.v = y.v ∧ z.k = y.k ∧ z.m = y.m ∧ z.q = y.q ∧ z.fpflags = y.fpflags)

/-- 04 R102: an I- or X-class instruction whose predicate's bit 0 is 0 has no effect. -/
def Obligations.FalsePredicate : Prop :=
  ∀ (i : Instr) (w : IWord) (s : State), encode i = some w → opcIsV (opcOf w).toNat = false → opcOf w ≠ 0xFFF →
    s.ready = true → (s.pred (hdOf w)).getLsbD 0 = false → exec i s = .next (s.setFate .done)

/-! The memory family (07). -/

/-- 07 R161 steps 1 to 6, 01 R33 and R34, 21 R409 to R411: with nothing cached, lost, poisoned, folding or locked, the walk of the
three tables decides an access: which fault it takes, with the level, and the place where it goes on. Domain 0 maps every address
to itself until its PTROOT is written, which is the model's choice (assumption 12). -/
def Obligations.AccessChecks : Prop :=
  ∀ (s : State) (w : Who) (a : Acc), s.tlb = [] → s.lost = [] → s.poison = [] → s.foldstat = 0 → s.lockWaits = [] →
    (∀ t ∈ s.tasks, t.2.mcas = none) →
    let va := a.va.toNat
    let fault := fun (cause level : Nat) => s.check w a = .trap { cause := cause, addr := a.va, w := a.wr, level := level }
    let at' := fun (pa : Nat) => ∃ tr, tr.pa = pa ∧ s.check w a = .ok pa tr
    let entry := fun (pa : Nat) => s.mem.num pa 8
    let fld := fun (e hi lo : Nat) => e / 2 ^ lo % 2 ^ (hi + 1 - lo)
    let next := fun (e : Nat) => fld e 51 16 * 2 ^ 16
    let lands := fun (pa swz level : Nat) (r wr chk : Bool) =>
      let may := (if a.wr then wr else r) = true
      let control := 2 ^ 51 ≤ pa ∧ pa < 2 ^ 51 + 2 ^ 32
      let pcie := 3 * 2 ^ 50 ≤ pa ∧ pa < 7 * 2 ^ 49
      (swz = 7 → fault 0x0A level)
        ∧ (swz ≠ 7 → ¬ may → fault 0x08 0)
        ∧ (swz ≠ 7 → may →
            (2 ^ 40 ≤ pa → ¬ control → ¬ pcie → fault 0x09 0)
              ∧ (control → if a.ctl = true ∧ w.dom = 0 then at' pa else fault 0x09 0)
              ∧ (pcie → if a.pcie = true then at' pa else fault 0x09 0)
              ∧ (pa < 2 ^ 40 → a.pcie = false → s.compacts = [] → (∀ l ∈ linesOf pa a.n, s.dirEnt l = DirEnt.reset) →
                  (chk = false ∨ a.plain = true) → at' pa))
    let reserved := fun (e : Nat) => fld e 63 62 ≠ 0 ∨ fld e 57 52 ≠ 0 ∨ fld e 15 8 ≠ 0 ∨ fld e 5 5 ≠ 0
    let badTable := fun (e : Nat) => reserved e ∨ fld e 61 58 ≠ 0 ∨ fld e 7 6 ≠ 0 ∨ fld e 4 2 ≠ 0 ∨ 2 ^ 40 ≤ next e
    let size := fun (e : Nat) => if fld e 7 6 = 2 then 2 ^ 30 else if fld e 7 6 = 1 then 2 ^ 21 else 2 ^ 16
    let badLeaf := fun (e level : Nat) => reserved e ∨ fld e 7 6 = 3 ∨ (fld e 3 3 = 1 ∧ fld e 2 2 = 0)
      ∨ ¬ (level = 2 ↔ fld e 7 6 = 2) ∨ next e % size e ≠ 0
    let leaf := fun (table idx e level : Nat) =>
      let n := if level = 2 ∧ fld e 7 6 = 2 then 2 else if level = 3 ∧ fld e 7 6 = 1 then 32 else 1
      (∀ i, i < n → entry (table + 8 * (idx / n * n + i)) = e) →
      (badLeaf e level → fault 0x0A level)
        ∧ (¬ badLeaf e level →
            lands (next e + va % size e) (fld e 60 58) level (fld e 2 2 == 1) (fld e 3 3 == 1) (fld e 61 61 == 1))
    let root := (s.dom w.dom).ptroot.toNat / 2 ^ 16 * 2 ^ 16
    let i1 := va / 2 ^ 42 % 2 ^ 13
    let i2 := va / 2 ^ 29 % 2 ^ 13
    let i3 := va / 2 ^ 16 % 2 ^ 13
    let e1 := entry (root + 8 * i1)
    let e2 := entry (next e1 + 8 * i2)
    let e3 := entry (next e2 + 8 * i3)
    (2 ^ 55 ≤ va → fault 0x05 0)
      ∧ (va < 2 ^ 55 → va % a.al ≠ 0 → fault 0x06 0)
      ∧ (va < 2 ^ 55 → va % a.al = 0 →
          (w.dom = 0 → (s.dom 0).ptSet = false →
              (va < 2 ^ 52 → lands va 0 3 true true false) ∧ (2 ^ 52 ≤ va → fault 0x07 1))
            ∧ ((w.dom ≠ 0 ∨ (s.dom 0).ptSet = true) →
                (fld e1 0 0 = 0 → fault 0x07 1)
                  ∧ (fld e1 0 0 = 1 → (fld e1 1 1 = 1 ∨ badTable e1) → fault 0x0A 1)
                  ∧ (fld e1 1 0 = 1 → ¬ badTable e1 →
                      (fld e2 0 0 = 0 → fault 0x07 2)
                        ∧ (fld e2 1 0 = 1 → badTable e2 → fault 0x0A 2)
                        ∧ (fld e2 1 0 = 3 → leaf (next e1) i2 e2 2)
                        ∧ (fld e2 1 0 = 1 → ¬ badTable e2 →
                            (fld e3 0 0 = 0 → fault 0x07 3)
                              ∧ (fld e3 1 0 = 1 → fault 0x0A 3)
                              ∧ (fld e3 1 0 = 3 → leaf (next e2) i3 e3 3)))))

/-- 07 R165: LD and LDP complete with the bytes of HBM at their address, LD of ATM = 1 with its acquire side. -/
def Obligations.LoadResults : Prop :=
  ∀ (f : MemF) (s : State), Runs s f.hd → f.a.isS = true →
    let n := 2 ^ f.size.toNat
    let va := memAddr s f
    ∀ pa tr, physClass pa = .hbm →
      (∀ t, s.spanWait va n false = false → memAtm f = false → s.check s.whoMe (dataAcc va n false) = .ok pa tr →
          Writes (s.readAt s.whoMe (dataAcc va n false) pa tr).2 f.d (extended f.sgn n (s.mem.num pa n)) t →
          Completes (.ld f) s t)
        ∧ (∀ inst t, s.spanWait va n false = false → memAtm f = true →
            s.scopeInst s.myDom s.myTile f.scope.toNat f.scopen.toNat = some inst →
            let acc := atomAcc va n false (acqInst f.order.toNat inst)
            s.check s.whoMe acc = .ok pa tr →
            Writes ((s.readAt s.whoMe acc pa tr).2.atomicRead pa n f.order.toNat inst) f.d
              (extended f.sgn n (s.mem.num pa n)) t →
            Completes (.ld f) s t)
        ∧ ∀ t u, s.spanWait va 16 false = false → s.check s.whoMe (dataAcc va 16 false) = .ok pa tr →
            Writes (s.readAt s.whoMe (dataAcc va 16 false) pa tr).2 f.d (BitVec.ofNat 64 (s.mem.num pa 8)) t →
            Writes t f.c (BitVec.ofNat 64 (s.mem.num (pa + 8) 8)) u →
            Completes (.ldp f) s u

/-- 07 R165: ST and STP complete, and memory is the old memory with the low bytes of their sources stored at the
address. -/
def Obligations.StoreResults : Prop :=
  ∀ (f : MemF) (s s1 : State) (b : Word), Runs s f.hd → f.a.isS = true → Reads s f.b b s1 →
    let n := 2 ^ f.size.toNat
    let va := memAddr s f
    ∀ pa tr, physClass pa = .hbm →
      (s1.spanWait va n true = false → memAtm f = false → s1.check s1.whoMe (dataAcc va n true) = .ok pa tr →
          ∃ t, Completes (.st f) s t ∧ t.mem = s.mem.write pa (natBytes b.toNat n) ∧ t.me.s = s.me.s)
        ∧ (∀ inst, s1.spanWait va n true = false → memAtm f = true →
            s.scopeInst s.myDom s.myTile f.scope.toNat f.scopen.toNat = some inst →
            (ordRel f.order.toNat = true → s.relWait = false) →
            s1.check s1.whoMe (atomAcc va n true) = .ok pa tr →
            ∃ t, Completes (.st f) s t ∧ t.mem = s.mem.write pa (natBytes b.toNat n) ∧ t.me.s = s.me.s)
        ∧ ∀ c s2, Reads s1 f.c c s2 → s2.spanWait va 16 true = false →
            s2.check s2.whoMe (dataAcc va 16 true) = .ok pa tr →
            ∃ t, Completes (.stp f) s t ∧ t.mem = s.mem.write pa (wordBytes b ++ wordBytes c) ∧ t.me.s = s.me.s

/-- 07 R165, 01 R33: a load or store of domain 0 reaches device control space: LD and LDP read the bytes of the registers
there, and ST and STP write them. That a narrower store leaves the register's other bytes as they are, and one to DEVCFG or
DSEQ that covers no byte of their fields writes nothing, is the choice of assumption 31. -/
def Obligations.ControlSpaceAccess : Prop :=
  ∀ (f : MemF) (s : State), Runs s f.hd → f.a.isS = true → f.size.toNat < 4 →
    let n := 2 ^ f.size.toNat
    let va := memAddr s f
    ∀ pa tr, physClass pa = .control →
      let reg := (pa - 0x8_0000_0000_0000) / 8 * 8
      let lo := 8 * (pa % 8)
      let mbox : Bool := decide (0x10_0000 ≤ reg) && decide (reg < 0x14_0000)
      let nothing : Bool := (decide (reg = 0x1_0200) && decide (2 ≤ pa % 8))
        || (mbox && decide (reg % 4096 = 2064) && decide (4 ≤ pa % 8))
      let stored : State → Word → State → Prop := fun u b t => ∃ w, u.ctlWord reg = some w ∧
        if nothing then t = u
        else ∃ v : Word, u.ctlPut reg v = some t ∧ ∀ i, i < 64 → v.getLsbD i =
          (if lo ≤ i ∧ i < lo + 8 * n then b.getLsbD (i - lo)
           else if mbox = true ∧ reg % 4096 = 2048 ∧ i = 32 then false else w.getLsbD i)
      (∀ w t inst, s.ctlWord reg = some w → s.spanWait va n false = false →
          let v := extended f.sgn n (w.toNat / 2 ^ lo % 2 ^ (8 * n))
          (memAtm f = false → s.check s.whoMe (dataAcc va n false) = .ok pa tr → Writes s f.d v t → Completes (.ld f) s t)
            ∧ (memAtm f = true → s.scopeInst s.myDom s.myTile f.scope.toNat f.scopen.toNat = some inst →
                s.check s.whoMe (atomAcc va n false (acqInst f.order.toNat inst)) = .ok pa tr →
                Writes (s.atomicRead pa n f.order.toNat inst) f.d v t → Completes (.ld f) s t))
        ∧ (∀ w w2 t u, s.spanWait va 16 false = false → s.check s.whoMe (dataAcc va 16 false) = .ok pa tr → pa % 8 = 0 →
            s.ctlWord reg = some w → s.ctlWord (reg + 8) = some w2 → Writes s f.d w t → Writes t f.c w2 u →
            Completes (.ldp f) s u)
        ∧ ∀ b s1, Reads s f.b b s1 →
            (∀ t inst, s1.spanWait va n true = false → stored s1 b t →
                (memAtm f = false → s1.check s1.whoMe (dataAcc va n true) = .ok pa tr → Completes (.st f) s t)
                  ∧ (memAtm f = true → s.scopeInst s.myDom s.myTile f.scope.toNat f.scopen.toNat = some inst →
                      (ordRel f.order.toNat = true → s.relWait = false) → s1.check s1.whoMe (atomAcc va n true) = .ok pa tr →
                      Completes (.st f) s (t.atomicWrite pa n f.order.toNat inst false)))
              ∧ ∀ c s2 w w2 t u, Reads s1 f.c c s2 → s2.spanWait va 16 true = false →
                  s2.check s2.whoMe (dataAcc va 16 true) = .ok pa tr → pa % 8 = 0 →
                  s2.ctlWord reg = some w → s2.ctlPut reg b = some t →
                  t.ctlWord (reg + 8) = some w2 → t.ctlPut (reg + 8) c = some u → Completes (.stp f) s u

/-- 07 R160, R161: a misaligned access takes the alignment fault, and one above the address space the address fault, with
the effective address: LD and ST, atomic or not, LDP and STP, the AMOs and CAS, of any order. -/
def Obligations.BadAddressTraps : Prop :=
  ∀ (f : MemF) (s s1 s2 : State) (b c : Word), Runs s f.hd → f.a.isS = true → Reads s f.b b s1 → Reads s1 f.c c s2 →
    let n := 2 ^ f.size.toNat
    let va := memAddr s f
    let cause : Nat → Option Nat := fun m =>
      if 2 ^ 55 ≤ va.toNat then some 5 else if va.toNat % m ≠ 0 then some 6 else none
    let inScope : Prop := ∃ inst, s.scopeInst s.myDom s.myTile f.scope.toNat f.scopen.toNat = some inst
    let released : State → Prop := fun u => ordRel f.order.toNat = true → u.relWait = false
    (∀ k, cause n = some k → s.spanWait va n false = false → (memAtm f = true → inScope) →
        Traps (.ld f) s 0x200 { cause := k, addr := va })
      ∧ (∀ k, cause n = some k → s1.spanWait va n true = false → (memAtm f = true → inScope ∧ released s) →
        Traps (.st f) s 0x201 { cause := k, addr := va, w := true })
      ∧ (∀ k, cause 16 = some k → s.spanWait va 16 false = false → Traps (.ldp f) s 0x202 { cause := k, addr := va })
      ∧ (∀ k, cause 16 = some k → s2.spanWait va 16 true = false →
        Traps (.stp f) s 0x203 { cause := k, addr := va, w := true })
      ∧ (∀ k, cause n = some k → s1.spanWait va n true = false → inScope → released s1 →
        ∀ p ∈ amoOps, ∃ opc, (encode (p.1 f)).map opcOf = some (BitVec.ofNat 12 opc)
          ∧ Traps (p.1 f) s opc { cause := k, addr := va, w := true })
      ∧ ∀ k e v u1 u2, cause n = some k → ReadsPair s f.b n e u1 → ReadsPair u1 f.c n v u2 → u2.spanWait va n true = false →
        inScope → released u2 → Traps (.cas f) s 0x340 { cause := k, addr := va, w := true }

/-- 07 R172: each AMO completes: memory holds the operation's result of the old value and the operand, and the
destination receives the old value. -/
def Obligations.AmoResults : Prop :=
  ∀ (f : MemF) (s s1 : State) (b : Word) (inst : ScopeInst) (pa : Nat) (tr : Tr), Runs s f.hd → f.a.isS = true →
    f.size.toNat < 4 → s.scopeInst s.myDom s.myTile f.scope.toNat f.scopen.toNat = some inst → Reads s f.b b s1 →
    let n := 2 ^ f.size.toNat
    let va := memAddr s f
    s1.spanWait va n true = false → (ordRel f.order.toNat = true → s1.relWait = false) →
    RmwGoes s1 va n f.order.toNat inst true pa tr →
    let old := s.mem.num pa n
    ∀ p ∈ amoOps, ∃ s2 : State,
      s2.mem = s.mem.write pa (natBytes (p.2 n old (b.toNat % 2 ^ (8 * n)) % 2 ^ (8 * n)) n) ∧ s2.me.s = s.me.s
        ∧ ∀ t, Writes s2 f.d (extended f.sgn n old) t → Completes (p.1 f) s t

/-- 07 R175: CAS completes: where the old value equals the expected one memory holds the new one, and otherwise memory is
unchanged; the destination receives the old value. -/
def Obligations.CasResult : Prop :=
  ∀ (f : MemF) (s s1 s2 : State) (e v : Nat) (inst : ScopeInst) (pa : Nat) (tr : Tr), Runs s f.hd → f.a.isS = true →
    s.scopeInst s.myDom s.myTile f.scope.toNat f.scopen.toNat = some inst →
    let n := 2 ^ f.size.toNat
    ReadsPair s f.b n e s1 → ReadsPair s1 f.c n v s2 →
    let va := memAddr s f
    s2.spanWait va n true = false → (ordRel f.order.toNat = true → s2.relWait = false) →
    let old := s.mem.num pa n
    RmwGoes s2 va n f.order.toNat inst (decide (old = e)) pa tr →
    ∃ s3 : State, s3.mem = (if old = e then s.mem.write pa (natBytes v n) else s.mem) ∧ s3.me.s = s.me.s
      ∧ ∀ t u, Writes s3 f.d (extended f.sgn n old) t →
          (if n = 16 then Writes t (regNext f.d) (BitVec.ofNat 64 (old / 2 ^ 64)) u else u = t) →
          Completes (.cas f) s u

/-- 07 R167: PREF never faults and changes no register and no byte; WBL and INVL act on the line's entry of the
directory, and WBL writes back a line of a resident frame (01 R30); ZEROL stores 128 zero bytes at the line.
Whether PREF is dropped is the free choice of assumption 8. -/
def Obligations.LineOperations : Prop :=
  ∀ (f : MemF) (s : State), Runs s f.hd →
    let va := s.memEa f
    (∃ t, Completes (.pref f) s t ∧ t.mem = s.mem ∧ t.tasks = s.tasks)
      ∧ (∀ pa tr, ({ s with poison := [] } : State).check s.whoMe (lineAcc va) = .ok pa tr →
          Completes (.wbl f) s
              (((s.fillTlb s.myDom va.toNat tr).updDir (pa / 128) (·.writeBack s.myClus)).writeBackLine (pa / 128))
            ∧ Completes (.invl f) s ((s.fillTlb s.myDom va.toNat tr).updDir (pa / 128) (·.drop s.myClus)))
      ∧ ∀ pa tr,
          let line : Word := BitVec.ofNat 64 (va.toNat / 128 * 128)
          let a : Acc := { va := line, n := 128, al := 1, wr := true }
          s.spanWait line 128 true = false → s.check s.whoMe a = .ok pa tr →
            ∃ t, Completes (.zerol f) s t ∧ t.mem = s.mem.write pa (List.replicate 128 0)
              ∧ t.tasks = s.tasks

/-- 07 R168, R170: PIN and UNPIN complete with their status; PIN's status 0 pins the 128 lines of the page for the
cluster, and UNPIN's releases them as dirty lines of the cluster. -/
def Obligations.PinResults : Prop :=
  ∀ (f : MemF) (s t : State), Runs s f.hd →
    let va := s.memEa f
    ∀ p, s.pinPage va = .ok p →
      (s.pinStatus p ≠ 0 → Writes (s.unqueue (.party s.me.party)) f.d (BitVec.ofNat 64 (s.pinStatus p)) t →
          Completes (.pin f) s t)
        ∧ (s.pinStatus p = 0 →
            let u := s.pinLines p.pa va
            (∀ l, l ∈ pageLines p.pa → (u.dirEnt l).st = .p 0 s.myClus)
              ∧ (∀ l, l ∉ pageLines p.pa → u.dirEnt l = s.dirEnt l)
              ∧ u.mem = s.mem ∧ u.tasks = s.tasks
              ∧ (Writes (u.unqueue (.party s.me.party)) f.d 0 t → Completes (.pin f) s t))
        ∧ (s.myPin p.pa = false → (∀ e ∈ p.lines, ∀ n c, e.pinnedBy = some (n, c) → n = 0) →
            Writes (s.unqueue (.party s.me.party)) f.d 1 t → Completes (.unpin f) s t)
        ∧ (s.myPin p.pa = true → (∀ e ∈ p.lines, ∀ n c, e.pinnedBy = some (n, c) → n = 0) →
            let u := s.unpinLines p.pa
            (∀ l, l ∈ pageLines p.pa → (∀ c, (s.dirEnt l).st ≠ .o c) → (u.dirEnt l).st = .m s.myClus)
              ∧ (∀ l, l ∉ pageLines p.pa → u.dirEnt l = s.dirEnt l)
              ∧ u.mem = s.mem ∧ u.tasks = s.tasks
              ∧ (Writes (u.unqueue (.party s.me.party)) f.d 0 t → Completes (.unpin f) s t))

/-- 07 R176 to R186: FENCE completes once the earlier accesses are performed; IOST sends a posted write, whose errors are counted
(that posted writes may fail outside, and that the firing program's count of them rises at once, is the choice of assumption
11); IOLD sends a read and, when its data has returned, completes with it, and takes the I/O error fault with the status where
it has failed or timed out; an MCAS whose locks are free completes in one event, with the status that `McasEvent` tells of.
Units serve in the same turn (assumption 1), I/O reads one at a time (33). -/
def Obligations.FenceIoMcas : Prop :=
  ∀ (f : MemF) (s : State), Runs s f.hd →
    let n := 2 ^ f.size.toNat
    let va := s.memEa f
    (∀ inst, s.scopeInst s.myDom s.myTile f.scope.toNat f.scopen.toNat = some inst → s.me.vDone = true →
        (ordRel f.order.toNat = true → s.relWait = false) →
        ∃ t, Completes (.fence f) s t ∧ t.mem = s.mem ∧ (t.tile s.myTile).lines = [] ∧ t.me.s = s.me.s
          ∧ t = (s.setTile s.myTile { s.tile s.myTile with lines := [] }).fence f.order.toNat inst)
      ∧ (∀ b s1 p, Reads s f.b b s1 → (ordRel f.order.toNat = true → s.relWait = false) →
          s.ioPlace va n true = .ok p →
          Completes (.iost f) s
            { s1 with outputs := s1.outputs ++ [.ioWrite p.1 p.2 (natBytes b.toNat n)], fresh := s1.fresh + 1,
                      ioErrors := s1.ioErrors + (if Config.postedFails s1.fresh then 1 else 0) })
      ∧ (∀ p, s.me.io = none → s.ioPlace va n false = .ok p →
          exec (.iold f) s = .next
            ({ s.upd (fun t => { t with io := some { port := p.1, addr := p.2, n := n, t0 := s.cycle, result := none } }) with
               outputs := s.outputs ++ [.ioRead p.1 p.2 n] } : State).setHeld)
      ∧ (∀ r v t, s.me.io = some r → r.result = some (0, v) →
          Writes (s.upd fun t => { t with io := none }) f.d (extended f.sgn n (v.toNat % 2 ^ (8 * n))) t →
          Completes (.iold f) s t)
      ∧ (∀ r code v, s.me.io = some r → r.result = some (code, v) → code ≠ 0 →
          exec (.iold f) s = .next (((s.upd fun t => { t with io := none }).keepQ s).takeTrap s
            { cause := 0x1D, detail := code, addr := va } false 0x380))
      ∧ ∀ r s1 st olds s2 t, s.mcasPlan f = .ok (r, s1) → s.cx.now = true → (∀ l ∈ r.lines, s1.lockable s.cur l = true) →
          s1.obsFree r = true → s1.witRoom r = true → s1.mcasEvent r = .ok (st, olds, s2) →
          Writes ((s2.putGroup ({ r with seen := some (st, olds) }.obsGroup s.myClus s.me.party)).unlockLines r.lines) f.d
            (BitVec.ofNat 64 st) t → Completes (.mcas f) s t

/-- 07 R179, R180: in the event of an MCAS whose target words are distinct and apart from its observed fields, the
status is 0 exactly when every word equals its expected value, and then every word holds its new value; otherwise the
status names the lowest word that differs, and every word keeps its value. The observed values are the old words, and
they are written after the words. The order of its writes is that of assumption 39. -/
def Obligations.McasEvent : Prop :=
  ∀ (s t : State) (r : McasRec) (st : Nat) (olds : List Nat), s.mcasEvent r = .ok (st, olds, t) →
    (∀ e ∈ r.entries, e.pa % 8 = 0 ∧ e.obs % 8 = 0) →
    (r.entries.map (·.pa)).Nodup → (r.entries.map (·.obs)).Nodup →
    (∀ e ∈ r.entries, ∀ g ∈ r.entries, e.pa ≠ g.obs) →
    let u := t.putGroup ({ r with seen := some (st, olds) }.obsGroup s.myClus s.me.party)
    (st = 0 ↔ ∀ e ∈ r.entries, s.mem.num e.pa 8 = e.exp.toNat)
      ∧ (st ≠ 0 → ∃ e, r.entries[st - 1]? = some e ∧ s.mem.num e.pa 8 ≠ e.exp.toNat
          ∧ ∀ j g, j < st - 1 → r.entries[j]? = some g → s.mem.num g.pa 8 = g.exp.toNat)
      ∧ (∀ e ∈ r.entries, u.mem.num e.pa 8 = (if st = 0 then e.new.toNat else s.mem.num e.pa 8))
      ∧ olds = r.entries.map (fun e => s.mem.num e.pa 8)
      ∧ (∀ e ∈ r.entries, u.mem.num e.obs 8 = s.mem.num e.pa 8)
      ∧ ∀ a, (∀ e ∈ r.entries, (a < e.pa ∨ e.pa + 8 ≤ a) ∧ (a < e.obs ∨ e.obs + 8 ≤ a)) → u.mem.get a = s.mem.get a

/-! Number formats (05). -/

/-- 05 R107, R108, R113, R114, R116 to R118: what a code means, and what rounding into a format gives. A value is at `q`, between the
neighbours `k u` and `(k + 1) u` of its grid, which goes on above the largest finite value, and for BF16 below the smallest normal
one. It becomes one of them by the mode, with NX where it was neither and UF where it was also below the smallest normal value;
a result beyond the format overflows or saturates. -/
def Obligations.RoundingLaw : Prop :=
  let widthE := fun (c : Nat) => ([8, 5, 8, 4, 5, 3, 2, 2] : List Nat).getD c 0
  let widthM := fun (c : Nat) => ([23, 10, 7, 3, 2, 2, 3, 1] : List Nat).getD c 0
  let bias := fun (c : Nat) => ([127, 15, 127, 7, 15, 3, 1, 1] : List Nat).getD c 0
  let big := fun (c : Nat) => ([(2 - pow2 (-23)) * pow2 127, 65504, (2 - pow2 (-7)) * pow2 127, 448, 57344, 28, 15 / 2, 6] : List Rat).getD c 0
  let bits := fun (c : Nat) => ([8, 16, 32, 64] : List Nat).getD (c % 4) 0
  let hi := fun (c : Nat) => if c ≤ 7 then big c else if c = 9 then 2 else if c ≤ 19 then pow2 (bits c - 1) - 1 else pow2 (bits c) - 1
  let lo := fun (c : Nat) => if c ≤ 7 then -big c else if c = 9 then -2 else if c ≤ 19 then -pow2 (bits c - 1) else 0
  let isInf := fun (c : Nat) => c = 0 ∨ c = 1 ∨ c = 2 ∨ c = 4
  (∀ c g e m : Nat, c ≤ 7 → g < 2 → e < 2 ^ widthE c → m < 2 ^ widthM c →
      ¬ (isInf c ∧ e = 2 ^ widthE c - 1) → ¬ (c = 3 ∧ e = 15 ∧ m = 7) → ¬ (c = 2 ∧ e = 0) →
      let q : Rat := if e = 0 then pow2 (1 - (bias c : Int)) * (m / pow2 (widthM c))
        else pow2 ((e : Int) - bias c) * (1 + m / pow2 (widthM c))
      dec c ((g * 2 ^ widthE c + e) * 2 ^ widthM c + m)
        = if q = 0 then .zero (g == 1) else .fin (if g = 1 then -q else q))
    ∧ (∀ c g m : Nat, isInf c → g < 2 → m < 2 ^ widthM c →
      let r := dec c ((g * 2 ^ widthE c + (2 ^ widthE c - 1)) * 2 ^ widthM c + m)
      if m = 0 then r = .inf (g == 1) else r.isNaN = true)
    ∧ (∀ g, g < 2 → dec 3 (128 * g + 127) = .nan false)
    ∧ (∀ g m, g < 2 → m < 128 → dec 2 (2 ^ 15 * g + m) = .zero (g == 1) ∧ (decFlags 2 (2 ^ 15 * g + m) = fDF ↔ m ≠ 0))
    ∧ (∀ g1 e1 g2 e2 : Nat, g1 < 2 → e1 < 8 → g2 < 2 → e2 < 8 →
      let term := fun (g e : Nat) => if e = 7 then 0 else if g = 1 then -pow2 (-(e : Int)) else pow2 (-(e : Int))
      dec 9 (128 * g1 + 16 * e1 + 8 * g2 + e2) = XV.ofRat (term g1 e1 + term g2 e2))
    ∧ (∀ c x, isIntFmt c = true →
      dec c x = XV.ofRat (if c ≤ 19 then (sint (bits c) x : Rat) else ((x % 2 ^ bits c : Nat) : Rat)))
    ∧ (∀ n j, j < 12 → (bitRev12 n).testBit j = n.testBit (11 - j))
    ∧ (∀ (s : State) (f : VecF) (w e : Nat), 0 < w →
      let bound := fun (g : Gen) => ∃ n k, f.d = .v n ∧ s.me.boundGen n = some (k, g) ∧ g.dir = true
      ((¬ ∃ g, bound g) → s.dith f w e = (f.imm.toNat + e) % 4096)
        ∧ ∀ g, bound g →
          let at' := (g.groupAddr g.pos.toNat).toNat
          (w % 8 = 0 → s.dith f w e = (at' + e * (w / 8)) / (w / 8) % 4096)
            ∧ (w < 8 → s.dith f w e = (8 * at' + e * w) / w % 4096))
    ∧ ∀ c mode i conv nov, mode ≤ 4 → (c ≤ 7 ∨ c = 9 ∨ isIntFmt c = true) → (nov = true → c ≤ 4) →
        (c = 9 → mode = 0 ∧ conv = true) → (conv = false → isInf c ∨ isIntFmt c = true) →
        let gives := fun (x y : XV) (fl : Flags) =>
          dec c (roundFmt x c mode i conv nov).1 = y ∧ (roundFmt x c mode i conv nov).2 = fl
        let zero := fun (neg : Bool) => if c ≤ 7 then XV.zero neg else .zero false
        let sat := fun (neg : Bool) => XV.ofRat (if neg then lo c else hi c)
        (∀ sig, if c ≤ 4 then gives (.nan sig) (.nan false) 0 else gives (.nan sig) (.zero false) fNV)
          ∧ (∀ neg, if isInf c then gives (.inf neg) (.inf neg) 0
              else if nov = true then gives (.inf neg) (.nan false) 0 else gives (.inf neg) (sat neg) fSAT)
          ∧ (∀ neg, gives (.zero neg) (zero neg) 0)
          ∧ (∀ (q : Rat) (e k : Int) (u : Rat), q ≠ 0 → c ≠ 9 → pow2 e ≤ absQ q → absQ q < pow2 (e + 1) →
              u = (if c ≤ 7 then pow2 ((if c = 2 then e else max e (1 - (bias c : Int))) - widthM c) else 1) →
              k * u ≤ q → q < (k + 1) * u →
              let neg := decide (q < 0)
              let up : Prop :=
                (mode = 0 ∧ (u < 2 * (q - k * u) ∨ u = 2 * (q - k * u) ∧ k % 2 = 1)) ∨ (mode = 1 ∧ q < 0) ∨ mode = 2
                  ∨ (mode = 4 ∧ 4096 ≤ (4096 * (q - k * u) / u).floor.toNat + bitRev12 (i % 4096))
              ∀ y : Rat, (q = k * u → y = q) → (q ≠ k * u → (up → y = (k + 1) * u) ∧ (¬ up → y = k * u)) →
              let tiny := c ≤ 7 ∧ absQ q < pow2 (1 - (bias c : Int))
              let fl := if q = k * u then 0 else if tiny then fNX ||| fUF else fNX
              let fo := fl ||| fOF ||| fNX
              let inside := lo c ≤ y ∧ y ≤ hi c
              (inside → ¬ (c = 2 ∧ absQ y < pow2 (-126)) → gives (.fin q) (if y = 0 then zero neg else .fin y) fl)
                ∧ (inside → c = 2 → absQ y < pow2 (-126) → gives (.fin q) (.zero neg) (fl ||| fUF ||| fNX))
                ∧ (¬ inside → conv = true → nov = true → gives (.fin q) (.nan false) fo)
                ∧ (¬ inside → conv = true → nov = false → gives (.fin q) (sat neg) (fo ||| fSAT))
                ∧ (¬ inside → conv = false →
                    gives (.fin q) (if isInf c ∧ mode ≠ 1 ∧ ¬ (mode = 2 ∧ q < 0) ∧ ¬ (mode = 3 ∧ 0 < q) then .inf neg else sat neg) fo))
          ∧ (c = 9 → ∀ q : Rat, q ≠ 0 →
              (2 < absQ q → gives (.fin q) (sat (decide (q < 0))) (fOF ||| fNX ||| fSAT))
                ∧ (absQ q ≤ 2 → ∃ y : Rat, (∃ x, x < 256 ∧ ds8Val x = y)
                    ∧ (∀ x, x < 256 → absQ (y - q) < absQ (ds8Val x - q)
                        ∨ absQ (y - q) = absQ (ds8Val x - q) ∧ absQ y ≤ absQ (ds8Val x))
                    ∧ gives (.fin q) (XV.ofRat y)
                        (if y = q then 0 else if absQ q < pow2 (-6) then fNX ||| fUF else fNX)
                    ∧ (y = 0 → (roundFmt (.fin q) c mode i conv nov).1 = 0x77)
                    ∧ ∀ x, y ≠ 0 → x < (roundFmt (.fin q) c mode i conv nov).1 → ds8Val x ≠ y))

/-! The vector family (08). -/

/-- 08 R187, R188, R207 to R210: a v register that no generator is bound to is read and written itself, rotated by a REP
below v24; a bound one gives the next group of its input stream, and a group past the last takes the stream-end trap. -/
def Obligations.VectorOperands : Prop :=
  ∀ (s : State) (n : BitVec 5),
    let r := if n.toNat < 24 then (n.toNat + s.cx.rot) % 24 else n.toNat
    (s.me.boundGen n = none →
        s.readV (.v n) = .ok (s.me.v.toList.getD r 0, s)
          ∧ ∀ x, ∃ t, s.writeV (.v n) x = .ok t ∧ t = s.upd fun k => { k with v := k.v.setIfInBounds r x })
      ∧ ∀ i g, s.me.boundGen n = some (i, g) →
          (g.dir = true → s.readV (.v n) = .error (.trap { cause := 0x13 }))
            ∧ (g.dir = false → ∀ x, s.writeV (.v n) x = .error (.trap { cause := 0x13 }))
            ∧ (g.dir = false → g.total ≤ g.pos.toNat → s.readV (.v n) = .error (.trap { cause := 0x15 }))
            ∧ (g.dir = false → g.pos.toNat < g.total → ∀ x l, g.fifo = x :: l → x.bad = none →
                s.readV (.v n) = .ok (x.data, s.upd fun k =>
                  { k with gens := k.gens.set i { g with fifo := l, pos := g.pos + 1, last := some x.data } }))
            ∧ (g.dir = false → g.pos.toNat < g.total → g.fifo = [] →
                s.wheelWait { lo := (g.groupAddr g.pos.toNat).toNat, n := 128, wr := false } = false →
                ∀ x s1, s.readGroup s.whoMe (g.groupAddr g.pos.toNat) = .ok (x, s1) →
                s.readV (.v n) = .ok (x, s1.upd fun k =>
                  { k with gens := k.gens.set i { g with pos := g.pos + 1, last := some x } }))

/-- 08 R193, 01 R20: of the elements written, an active one holds the new code, an inactive one zero under ZM and its
old value otherwise; the flags raised are those of the active elements. -/
def Obligations.ElementLaw : Prop :=
  ∀ (p : KReg) (zm : Bool) (w n : Nat) (g : Nat → Nat × Flags) (old : VReg), 0 < w → w * n ≤ 1024 →
    (w = 6 → n ≤ 128) →
    let r := putEls p zm w (List.range n) g old
    (∀ e, e < n → vecEl r.1 w e =
        (if p.getLsbD (w * e / 8) then (g e).1 % 2 ^ w else if zm then 0 else vecEl old w e))
      ∧ (w ≠ 6 → ∀ i, w * n ≤ i → r.1.getLsbD i = old.getLsbD i)
      ∧ ∀ i, i < 9 → (r.2.getLsbD i = true ↔ ∃ e, e < n ∧ p.getLsbD (w * e / 8) = true ∧ (g e).2.getLsbD i = true)

/-- 08 R194, 05 R117: the rounded operations complete; each active element is the exact result of its operands'
elements, rounded once into the format, and the flags of the operation are raised. Roots, exponentials and logarithms
are computed as in assumption 14. -/
def Obligations.RoundedResults : Prop :=
  ∀ (f : VecF) (s s1 : State) (a : VReg), s.ready = true → s.readV f.a = .ok (a, s1) →
    let w := fmtWidth f.fc
    let x := fun (e : Nat) => decX f.fc (vecEl a w e)
    let gives : (VecF → Instr) → State → (Nat → (XV × Flags) × Flags) → Prop := fun i u r =>
      ∀ t, u.emit' f f.fc (fun e => u.roundEl f e (r e).1 (r e).2) = .ok t → Completes (i f) s t
    (∀ p ∈ roundedUnary, gives p.1 s1 fun e => (p.2 (x e).1, (x e).2))
      ∧ ∀ b s2, s1.readB f w = .ok (b, s2) →
        let y := fun (e : Nat) => decX f.fc (b e)
        (∀ p ∈ roundedBinary f.rnd.toNat, gives p.1 s2 fun e => (p.2 (x e).1 (y e).1, (x e).2 ||| (y e).2))
          ∧ (gives .vscale s2 fun e => (((x e).1.scale (sint w (b e)), 0), (x e).2))
          ∧ ∀ c s3, s2.readV f.c = .ok (c, s3) →
            let z := fun (e : Nat) => decX f.fc (vecEl c w e)
            ∀ p ∈ roundedTernary f.rnd.toNat,
              gives p.1 s3 fun e => (p.2 (x e).1 (y e).1 (z e).1, (x e).2 ||| (y e).2 ||| (z e).2)

/-- 08 R195, R196: the exact operations, VCLASS, VCMP and VSEL complete. -/
def Obligations.ExactResults : Prop :=
  ∀ (f : VecF) (s s1 : State) (a : VReg), s.ready = true → s.readV f.a = .ok (a, s1) →
    let w := fmtWidth f.fc
    let x := fun (e : Nat) => decX f.fc (vecEl a w e)
    let gives : (VecF → Instr) → State → (Nat → Nat × Flags) → Prop := fun i u r =>
      ∀ t, u.emit' f f.fc r = .ok t → Completes (i f) s t
    (gives .vabs s1 fun e => (exactCode f.fc (x e).1.abs, (x e).2))
      ∧ (gives .vneg s1 fun e => (exactCode f.fc (x e).1.neg, (x e).2))
      ∧ (gives .vclass s1 fun e =>
          let c := vecEl a w e
          (2 ^ classBit (dec f.fc c) (c / 2 ^ fmtM f.fc % 2 ^ fmtE f.fc == 0), decFlags f.fc c))
      ∧ ∀ b s2, s1.readB f w = .ok (b, s2) →
        let y := fun (e : Nat) => decX f.fc (b e)
        (gives .vmin s2 fun e => (exactCode f.fc (XV.min (x e).1 (y e).1), (x e).2 ||| (y e).2))
          ∧ (gives .vmax s2 fun e => (exactCode f.fc (XV.max (x e).1 (y e).1), (x e).2 ||| (y e).2))
          ∧ (gives .vabsmax s2 fun e => (exactCode f.fc (XV.max (x e).1.abs (y e).1.abs), (x e).2 ||| (y e).2))
          ∧ (gives .vsel s2 fun e => (if (s2.kSrc f.c).getLsbD (w * e / 8) then vecEl a w e else b e, 0))
          ∧ (isIntFmt f.fc = true → ∀ r,
              r = (List.range (fmtCap f.fc)).foldl
                (putMask (s2.pred f.hd) f.zm w fun e =>
                  (cmpInt f.x.toNat (intEl f.fc (vecEl a w e)) (intEl f.fc (b e)), 0)) (s2.kSrc f.d, 0) →
              Completes (.vcmp f) s (s2.writeK f.d r.1))
          ∧ (isIntFmt f.fc = false → ∀ r,
              r = (List.range (fmtCap f.fc)).foldl
                (putMask (s2.pred f.hd) f.zm w fun e =>
                  let c := cmpFloat f.x.toNat (dec f.fc (vecEl a w e)) (dec f.fc (b e))
                  (c.1, c.2 ||| decFlags f.fc (vecEl a w e) ||| decFlags f.fc (b e))) (s2.kSrc f.d, 0) →
              Completes (.vcmp f) s ((s2.writeK f.d r.1).raise r.2))

/-- 08 R197 to R199: VCVT, VQNT, VQNT.sout and VDQNT complete. Scales of q8 that are zero or no numbers are as in
assumption 45, and q8 codes under scales that are no numbers or negative as in assumptions 83 and 84. -/
def Obligations.ConversionResults : Prop :=
  ∀ (f : VecF) (s : State), s.ready = true →
    (∀ a s1 t, s.readV f.a = .ok (a, s1) →
        (s1.convEls f a f.fc f.fc2 (fun code i =>
            let x := decX f.fc code
            let r := roundFmt x.1 f.fc2 f.rnd.toNat i true f.nov
            (r.1, r.2 ||| x.2)) = .ok t → Completes (.vcvt f) s t)
          ∧ ∀ b s2, s1.readSc f.b = .ok (b, s2) →
            (s2.convEls f a f.fc f.fc2 (fun code i =>
                let x := decX f.fc code
                let m := dec 0 (b.toNat % 2 ^ 32)
                let r := qntCode m.abs x.1 f.fc2 f.rnd.toNat i f.nov
                (r.1, r.2 ||| x.2 ||| m.sigFlags)) = .ok t → Completes (.vqnt f) s t)
              ∧ (s2.convEls f a f.fc2 f.fc (fun code i =>
                let x := dqntVal f.fc2 code b
                let r := roundFmt x.1 f.fc f.rnd.toNat i true f.nov
                (r.1, r.2 ||| x.2)) = .ok t → Completes (.vdqnt f) s t))
      ∧ ∀ b s1 n t, s.readSc f.b = .ok (b, s1) → f.d = .q n →
          Writes s1 f.d (BitVec.ofNat 64 (qntScale (dec 0 (b.toNat % 2 ^ 32)).abs f.fc2)) t →
          Completes (.vqntSout f) s (t.raise (dec 0 (b.toNat % 2 ^ 32)).sigFlags)

/-- 08 R200, R201: the integer and logic operations complete; each active element is the exact result modulo 2^w,
clamped first under SAT. -/
def Obligations.VectorIntegerResults : Prop :=
  ∀ (f : VecF) (s s1 s2 : State) (a : VReg) (b : Nat → Nat), s.ready = true → s.readV f.a = .ok (a, s1) →
    let w := fmtWidth f.fc
    s1.readB f w = .ok (b, s2) →
    ∀ p ∈ vectorIntOps f.fc (f.x.getLsbD 0) (f.x.getLsbD 1), ∀ t,
      s2.emit' f f.fc (fun e => ((p.2 (vecEl a w e) (b e) % 2 ^ w).toNat, 0)) = .ok t → Completes (p.1 f) s t

/-- 08 R202, R203: VBCAST, VEXT, VINS, VPERM, VSHUF, VIOTA, VMOV, VRED and VSCAN complete. The other elements of
VRED's register are those of assumption 21. VINS reads its destination, so a bound one traps (08 R209). -/
def Obligations.MoveResults : Prop :=
  ∀ (f : VecF) (s : State), s.ready = true →
    let w := fmtWidth f.fc
    let n := fmtCap f.fc
    let gives : (VecF → Instr) → State → (Nat → Nat × Flags) → Prop := fun i u r =>
      ∀ t, u.emit' f f.fc r = .ok t → Completes (i f) s t
    (∀ b s1, s.readSc f.b = .ok (b, s1) →
        (gives .vbcast s1 fun _ => (b.toNat, 0))
          ∧ (gives .viota s1 fun e => ((b.toNat + e) % 2 ^ w, 0))
          ∧ (s.isBound f.d = true → Traps (.vins f) s 0x742 { cause := 0x13 })
          ∧ ∀ t, s.isBound f.d = false → s1.emitEls f w [f.imm.toNat] (fun _ => (b.toNat, 0)) = .ok t →
              Completes (.vins f) s t)
      ∧ ∀ a s1, s.readV f.a = .ok (a, s1) →
        (gives .vmov s1 fun e => (vecEl a w e, 0))
          ∧ (∀ q t, f.d = .q q → Writes s1 f.d (elWord f.fc (vecEl a w f.imm.toNat)) t → Completes (.vext f) s t)
          ∧ (∀ b s2, s1.readV f.b = .ok (b, s2) →
              (gives .vperm s2 fun e => (vecEl a w (vecEl b w e % n), 0))
                ∧ gives .vshuf s2 fun e => (pairEl a b w n (shufIdx f.x.toNat n f.imm.toNat e), 0))
          ∧ (∀ q t, f.d = .q q →
              let r := redTree f.fc f.x.toNat 8 (redSource (s1.pred f.hd) f.fc f.x.toNat a) 0
              Writes s1 f.d (elWord f.fc r.1) t → Completes (.vred f) s (t.raise r.2))
          ∧ (∀ v t, f.d = .v v →
              let r := redTree f.fc f.x.toNat 8 (redSource (s1.pred f.hd) f.fc f.x.toNat a) 0
              s1.writeV f.d (BitVec.ofNat 1024 r.1) = .ok t → Completes (.vred f) s (t.raise r.2))
          ∧ ∀ t,
              let r := scanSteps f.fc f.x.toNat 8 1 (redSource (s1.pred f.hd) f.fc f.x.toNat a) 0
              s1.emit' f f.fc (fun e => ((scanFirst f.fc r.1).getD e 0, 0)) = .ok t → Completes (.vscan f) s (t.raise r.2)

/-- 08 R204: the mask instructions complete; an inactive bit of the destination is kept, or cleared with ZM. KPOP and
KFIRST push the number and the place of the bits of a that the predicate lets through. -/
def Obligations.MaskResults : Prop :=
  ∀ (f : VecF) (s : State), s.ready = true →
    let p := s.pred f.hd
    let a := s.kSrc f.a
    let b := s.kSrc f.b
    (∀ i ∈ ([(.kand, a &&& b), (.kor, a ||| b), (.kxor, a ^^^ b), (.knot, ~~~a), (.kmov, a)] :
          List ((VecF → Instr) × KReg)),
        ∀ r : KReg, (∀ j, j < 128 → r.getLsbD j =
            (if p.getLsbD j then i.2.getLsbD j else if f.zm then false else (s.kSrc f.d).getLsbD j)) →
          Completes (i.1 f) s (s.writeK f.d r))
      ∧ ∀ q t, f.d = .q q →
        (Writes s f.d (BitVec.ofNat 64 ((List.range 128).filter fun j => a.getLsbD j && p.getLsbD j).length) t →
            Completes (.kpop f) s t)
          ∧ (∀ j, j < 128 → (a.getLsbD j && p.getLsbD j) = true →
              (∀ l, l < j → (a.getLsbD l && p.getLsbD l) = false) →
              Writes s f.d (BitVec.ofNat 64 j) t → Completes (.kfirst f) s t)
          ∧ ((∀ j, j < 128 → (a.getLsbD j && p.getLsbD j) = false) → Writes s f.d 128 t → Completes (.kfirst f) s t)

/-- 08 R205, R206: a vector load or store whose active elements all pass their checks completes; a load's elements are
read from their addresses, and a store writes its active elements in ascending order. -/
def Obligations.VectorMemoryResults : Prop :=
  ∀ (f : VecF) (s : State), s.ready = true →
    let w := fmtWidth f.fc
    let at' := fun (e : Nat) => s.cx.scal + f.imm.signExtend 64 + BitVec.ofNat 64 (e * (w / 8))
    let indexed := fun (v : VReg) (e : Nat) =>
      s.cx.scal + f.imm.signExtend 64 + BitVec.ofInt 64 (sint w (vecEl v w e) * ((2 ^ f.x.toNat : Nat) : Int))
    let loads : (VecF → Instr) → State → (Nat → Word) → Prop := fun i u addr =>
      ∀ accs, u.vecCheck (w / 8) false (u.vecActive f addr) = .ok accs →
        ∃ u1 : State, u1.mem = u.mem ∧ u1.me.v = u.me.v ∧ u1.me.s = u.me.s
          ∧ ∀ t, u1.emit' f f.fc (fun e => (match accs.find? (·.1 == e) with
              | some x => u.mem.num x.2.2.1 (w / 8)
              | none => 0, 0)) = .ok t → Completes (i f) s t
    let stores : (VecF → Instr) → State → VReg → (Nat → Word) → Prop := fun i u v addr =>
      ∀ accs, u.vecCheck (w / 8) true (u.vecActive f addr) = .ok accs →
        ∃ t, Completes (i f) s t ∧ t.me.v = u.me.v ∧ t.me.s = u.me.s
          ∧ t.mem = accs.foldl (fun m x => m.write x.2.2.1 (natBytes (vecEl v w x.1) (w / 8))) u.mem
    loads .vld s at'
      ∧ (loads .vlds s fun e => s.cx.scal + BitVec.ofNat 64 e * f.imm.signExtend 64)
      ∧ ∀ b s1, s.readV f.b = .ok (b, s1) →
          stores .vst s1 b at'
            ∧ loads .vgath s1 (indexed b)
            ∧ ∀ c s2, s1.readV f.c = .ok (c, s2) → stores .vscat s2 c (indexed b)

/-- 08 R207 to R213: AGEN loads a generator from a well-formed descriptor, QBIND binds it, QFREE frees a register and
leaves it its last group, and REP takes its count. -/
def Obligations.StreamResults : Prop :=
  ∀ (f : VecF) (s : State), s.ready = true →
    let i := vecGen f
    let va := s.cx.scal + f.imm.signExtend 64
    (∀ x s1, s.me.gens[i].bound = false → s.wheelWait { lo := va.toNat, n := 48, wr := false } = false →
        s.readStruct s.whoMe va 48 8 = .ok (x, s1) → genDescOk x = true →
        Completes (.agen f) s (s1.upd fun t => { t with gens := t.gens.set i (genOfDesc x) }))
      ∧ (∀ n, f.d = .v n → s.me.gens[i].valid = true → s.me.gens[i].bound = false → s.me.boundGen n = none →
          let g : Gen := { s.me.gens[i] with
            bound := true, vreg := BitVec.ofNat 3 (n.toNat - 24), fifo := [], out := [], last := none }
          Completes (.qbind f) s (s.upd fun t => { t with gens := t.gens.set i g }))
      ∧ (∀ n, f.d = .v n → s.me.boundGen n = none → Completes (.qfree f) s s)
      ∧ (∀ n j g, f.d = .v n → s.me.boundGen n = some (j, g) → g.out = [] →
          let g1 : Gen := { g with bound := false, fifo := [], out := [] }
          Completes (.qfree f) s (s.upd fun t =>
            { t with gens := t.gens.set j g1, v := t.v.set n.toNat (g.last.getD t.v[n.toNat]) }))
      ∧ ∀ n s1, s.readSc f.a = .ok (n, s1) →
          if n.toNat ≤ 65536 then Completes (.rep f) s (s1.repTake f n.toNat)
          else Traps (.rep f) s 0x7C3 { cause := 0x0E }

/-! Encoding (04). -/

/-- 04 R87, R97 to R99, R105: words written out from the encoding tables, one of each format and family, are decoded to
their instructions; the first two are the manual's own. -/
def Obligations.DecodeTableWords : Prop :=
  decodeTableWord 96 0x1010080A_00058000_0000041C = some (.bfx
      { hd := ⟨false, 0, false⟩, d := .s 8, a := .s 5, b := .s 0, c := .s 0, ib := true, ty := 3, cond := 0, iz := false,
        x := 0, imm := 0x41C })
    ∧ decodeTableWord 96 0x18003F01_00000000_00000008 = some (.call
      { hd := ⟨false, 0, false⟩, a := .s 63, b := .s 0, link := true, off := 1, slot := 0 })
    ∧ decodeTableWord 96 0x195007D4_FFFFFFFF_FFFFFFEC = some (.brLtI64
      { hd := ⟨false, 0, false⟩, a := .s 7, b := .m 2, link := false, off := -3, slot := 4 })
    ∧ decodeTableWord 96 0x14100500_80000000_00000001 = some (.li
      { hd := ⟨false, 0, false⟩, d := .s 5, modl := 0, imm := 0x8000000000000001#64 })
    ∧ decodeTableWord 96 0x20000904_00028000_FFFFFFF8 = some (.ld
      { hd := ⟨false, 0, false⟩, d := .s 9, a := .s 2, b := .s 0, c := .s 0, size := 2, sgn := true, order := 0, scope := 0,
        scopen := 0, far := false, x := 0, imm := 0xFFFFFFF8 })
    ∧ decodeTableWord 96 0x30000308_14034610_00000010 = some (.amoAdd
      { hd := ⟨false, 0, false⟩, d := .s 3, a := .s 4, b := .s 5, c := .s 0, size := 3, sgn := false, order := 4, scope := 3,
        scopen := 0, far := true, x := 0, imm := 16 })
    ∧ decodeTableWord 96 0x4032C185_0E208060_00000000 = some (.vfma
      { hd := ⟨false, 2, true⟩, d := .v 1, a := .v 2, b := .v 3, c := .v 4, fmt := 2, fmt2 := 0, rnd := 1, zm := true,
        nov := false, sb := false, x := 0, imm := 0 })
    ∧ decodeTableWord 96 0x84000014_2C01D300_00000000 = some (.mma
      { hd := ⟨false, 0, false⟩, d := .s 0, a := .s 10, b := .s 11, c := .s 0, fmta := 7, fmtb := 9, acc := true,
        p24 := false, x := 0, imm := 0 })
    ∧ decodeTableWord 96 0x98100000_000041C0_00000000 = some (.arrive
      { hd := ⟨false, 0, false⟩, d := .s 0, a := .s 0, b := .s 0, c := .s 0, que := 0, trapm := false, rlx := true,
        tmo := false, cone := 7, x := 0, imm := 0 })
    ∧ decodeTableWord 96 0xF0000100_00000010_00000000 = some (.srd
      { hd := ⟨false, 0, false⟩, d := .s 1, a := .s 0, b := .s 0, c := .s 0, x := 0, sysn := 0x10, imm := 0 })
    ∧ decodeTableWord 96 0xFFFFFFFF_FFFFFFFF_FFFFFFFF = some (.illegalOpcodeFff (BitVec.allOnes 84))

/-- 04 R94, R97, R99, R105: every well-formed instruction is what its own word is decoded to, with every operand. -/
def Obligations.EncodeThenDecode : Prop :=
  ∀ (i : Instr) (w : IWord), WellFormed i = true → encode i = some w → decode w = .ok i

/-- 04 R94, R97, R99: a decoded instruction is well formed, and its word is the word that was decoded: no bit is dropped. -/
def Obligations.DecodeThenEncode : Prop :=
  ∀ (i : Instr) (w : IWord), decode w = .ok i → WellFormed i = true ∧ encode i = some w

/-- 04 R94, R105: a word is refused with detail 1 exactly when its group or its function is not in the opcode map. -/
def Obligations.UnassignedOpcodes : Prop :=
  ∀ w : IWord,
    let opc := (w.extractLsb' 84 12).toNat
    decode w = .error .unassignedOpcode ↔ ∀ g ∈ opcodeMap, ∀ fn ∈ g.2, opc ≠ g.1 * 64 + fn

/-! Steps (02, 04, 08). -/

/-- 04 R90 to R93, 02 R45, R46: the turn of a task that the bundle arbiter grants fetches the line at its PC, checks the
bundle there, and its registers' words for poison (23 R431; assumption 94), and waits for its frame lines, and a
U-prefixed one as a release; a bundle of one instruction runs what its word is decoded to, and is then committed (PC, branch trace, single step), or, for TRAPI, committed before. A V-class instruction joins the V-stream queue.
Turns, and the place of each in its ck, are those of assumption 1. -/
def Obligations.StepRunsIssue : Prop :=
  ∀ (s s0 s1 s2 : State) (t dt : Nat) (now : Bool) (rest : List Turn) (x y z : Task) (l : List Byte) (b : BSlot) (next : Word),
    s.agenda = { dt := dt, act := .issue t now } :: rest →
    s0 = ({ s with agenda := rest } : State).atTurn { dt := dt, act := .issue t now } →
    s0.bundleGranted exec t now = true → s0.issues t x →
    (s0.readSaved t).fetchLine t ((s0.readSaved t).task t).pc = .line l s1 →
    s1.checkBundle t l = .ok [b] next → s1.task? t = some y → s1.breakAt t [b] = false →
    s1.uniWait t [b] = false → s1.badReg t (bundleSrcs [b]) = none →
    s1.withLines t (bundleLines [b]) now = some s2 → s2.task? t = some z → z.live = true →
    (∃ j, slotOf y.pc = some j ∧ b.word = lineSlot l j) ∧ decode b.word = .ok b.ins
      ∧ (opcPipe b.opc ≠ .v → y.bundleReady [b] [] = true →
          (b.opc ≠ 0x1C2 →
            step s = match exec b.ins (s2.begin t b.pc next z.pc now) with
              | .next a => .next (if a.cx.fate = .done then a.commitBundle t z next [] (wordDsts b.word) else a)
              | o => o)
          ∧ (b.opc = 0x1C2 → ∀ c,
              exec b.ins (((s2.begin t z.pc next z.pc now).commitBundle t z next []).begin t b.pc next z.pc now) = .next c →
              c.cx.fate ≠ .stalled → step s = .next c))
      ∧ (opcPipe b.opc = .v → y.bundleReady [] [b] = true → now = false →
          step s = .next ((s2.begin t z.pc next z.pc now).commitBundle t z next [b]))

/-- 08 R189, R190, 02 R46; assumption 1: the turn of a V-stream that the vector arbiter grants runs the instruction at its head,
once its frame lines are there; the turn of another agent is its event; what the firing program and a PCIe port do is their
operation (assumptions 76, 90); a router link goes down or comes up, and other traffic enters the fabric (assumption 10). 23
R431; assumption 94: an uncorrectable error poisons its word, is counted at the die that holds it and is logged. -/
def Obligations.StepRunsVectorAndEvents : Prop :=
  ∀ (s s0 : State) (dt : Nat) (rest : List Turn) (u : Act),
    s.agenda = { dt := dt, act := u } :: rest →
    s0 = ({ s with agenda := rest } : State).atTurn { dt := dt, act := u } →
    (∀ i, u = .event i → step s = exec i s0)
      ∧ (u = .pass → step s = .next s0)
      ∧ (∀ op, u = .firm op → step s = .next (s0.firmAct op))
      ∧ (∀ peer op, u = .port peer op → step s = .next (s0.portAct peer op))
      ∧ (∀ e, u = .ecc e → step s = .next (s0.eccError e))
      ∧ (∀ a b up, u = .link a b up → step s = .next (s0.setLink a b up))
      ∧ (∀ src dest kind q pays, u = .traffic src dest kind q pays → step s = .next (s0.otherTraffic src dest kind q pays))
      ∧ (∀ clus, u = .lateStart clus → step s = .next (s0.wheelGo clus true))
      ∧ (∀ d pa, u = .ecc (.word d pa) → d < 8 → pa < 2 ^ 40 → s0.poison.contains (pa / 8) = false →
          ∃ t, step s = .next t ∧ t.poison = s0.poison ++ [pa / 8] ∧ t.mem = s0.mem
            ∧ (t.die d).poisoned = Nat.min (2 ^ 32 - 1) ((s0.die d).poisoned + 1)
            ∧ (t.die d).klhead = (s0.die d).klhead + 1)
      ∧ ∀ t x e l i s1, u = .vector t → s0.vectorGranted exec t = true →
          (s0.readSaved t).task? t = some x → x.live = true → x.vq = e :: l →
          (s0.readSaved t).ready? t e 0 false = .ok (i, s1) → (∀ f, i ≠ .rep f) →
          let s2 := s1.setTile x.tile { s1.tile x.tile with lastVector := x.ctx }
          step s = match exec i (s2.beginV t e e.pc 0 false) with
            | .next a => .next (if a.cx.fate = .done then
                ((a.servedDone (.task t true) e.clk).cleanRegs t (vecDsts i 0)).updTask t fun y => { y with vq := y.vq.drop 1 }
                else a)
            | o => o

/-! Reset and an invariant. -/

/-- The values that the manual gives the registers of a device after cold reset (01 R26; 02 R54; 09 R225; 14 R346,
R350; 20 R382, R387, R393; 23 R429), with no task, nothing in flight and nothing listed in memory. CYCLE and memory
are as assumptions 2 and 3 choose. -/
def Obligations.ResetValues : Prop :=
  let s := State.reset
  s.fabthr = 0x80_6040_3020_1008#64 ∧ s.cohctl = 1 ∧ s.uetrto = 0x4E20#64 ∧ s.uetretry = 8 ∧ s.pklimit = 1000
    ∧ s.devset = false ∧ s.slfold = 0 ∧ s.foldstat = 0 ∧ s.cycle = 0
    ∧ (∀ d p, (s.die d).dampctl = 0x40_0040#64 ∧ (s.die d).xdelay = 0x0003_0D40#64
        ∧ (s.die d).dqage.toList.getD p 0 = (if p < 16 then 0x0100#64 else 0) ∧ (s.die d).queue p = [])
    ∧ (∀ c, (s.wheel c).wt = 0x1_1111_1111#64 ∧ (s.wheel c).queues = [])
    ∧ (∀ c n, (s.cone c n).init = false)
    ∧ (∀ l, (s.dirEnt l).st = .i)
    ∧ (∀ t, s.task? t = none) ∧ s.flits = [] ∧ s.sends = [] ∧ s.compacts = [] ∧ s.gangs = [] ∧ s.mem = []
    ∧ s.memOk = true ∧ s.partOk = true

/-- 01 R33, assumption 2: every step keeps the canonical form of the device memory (addresses rise, and no entry equals
what an unlisted address reads as), whatever turn it runs. -/
def Obligations.StepKeepsMemory : Prop :=
  ∀ s t : State, s.mem.wf = true → step s = .next t → t.mem.wf = true

/-! Once-per-cluster groups (04 R100, R101). -/

/-- 04 R100, R101: a U-prefixed scalar instruction traps where U is not permitted; the first member to reach it executes
it and its result is posted; a later member receives that result, or waits for it; one whose PC differs traps with
detail 7. -/
def Obligations.UnisonGroups : Prop :=
  ∀ i ∈ scalarOps, ∀ (f : ScF) (s : State), s.ready = true → (s.pred f.hd).getLsbD 0 = true → f.hd.u = true →
    let bad : Nat → Prop := fun d => ∃ opc, (encode (i f)).map opcOf = some (BitVec.ofNat 12 opc)
      ∧ Traps (i f) s opc { cause := 1, detail := d, addr := s.cx.pc }
    (s.uniAllowed = false → bad 4)
      ∧ ∀ g, s.me.gang = some g → s.uniAllowed = true →
          (s.ugroup? s.myClus g s.me.unum = none →
            ∀ t, exec (i { f with hd := { f.hd with u := false } }) s = .next t → t.cx.fate = .done →
              exec (i f) s = .next (t.uniDone s.myClus g s.me.unum [f.d]))
          ∧ ∀ u, s.ugroup? s.myClus g s.me.unum = some u → u.exec ≠ s.cur →
              (u.pc ≠ s.cx.pc → bad 7)
                ∧ (u.pc = s.cx.pc → u.done = true → (waitKind s.me.wait ≠ 4 ∨ s.me.wake = none) →
                    Completes (i f) s (((s.uniTake s.cur u).upd Task.countU).pruneGroups s.myClus g))
                ∧ (u.pc = s.cx.pc → u.done = false → exec (i f) s = .next (s.upd fun t => t.waitU f.d).setHeld)

/-! Frames. -/

/-- A scalar instruction that completes changes the current task's registers alone: no register but its destination, no
q register but those it names, no flag or status bit, no special register, and nothing outside the task, so no byte of
memory (06 R136 to R151). -/
def Obligations.ScalarFrame : Prop :=
  ∀ i ∈ scalarOps, ∀ (f : ScF) (s t : State) (x y : Task), f.hd.u = false → exec (i f) s = .next t → t.cx.fate = .done →
    s.task? s.cur = some x → t.task? s.cur = some y →
    s.sameButMe t ∧ x.sameButRegs y ∧ t.mem = s.mem
      ∧ (∀ n, f.d ≠ .s n → y.sreg n = x.sreg n)
      ∧ (∀ n, f.d ≠ .k n → y.kreg n = x.kreg n)
      ∧ (∀ n, f.d ≠ .m n → y.mreg n = x.mreg n ∧ y.full.getLsbD n.toNat = x.full.getLsbD n.toNat)
      ∧ (∀ n, f.d ≠ .q n → f.a ≠ .q n → f.b ≠ .q n → f.c ≠ .q n → y.qlist n = x.qlist n)
      ∧ y.fpflags = x.fpflags ∧ y.status = x.status ∧ y.pc = x.pc

/-- A V-class instruction that completes, and whose destination no output stream takes, changes no byte of memory, no s
or m register, no status bit, no tile, domain or die; no v or k register but its destination, no q register but those it names,
and no generator that is not bound; no other task, no cluster and no queued entry changes (08 R187 to R210). -/
def Obligations.VectorFrame : Prop :=
  ∀ i ∈ vectorRegOps, ∀ (f : VecF) (s t : State) (x y : Task), exec (i f) s = .next t → t.cx.fate = .done →
    s.task? s.cur = some x → t.task? s.cur = some y → (∀ n, f.d = .v n → x.boundGen n = none) →
    t.mem = s.mem ∧ t.tiles = s.tiles ∧ t.doms = s.doms ∧ t.dies = s.dies
      ∧ (∀ n, n ≠ s.cur → t.task? n = s.task? n) ∧ t.cluss = s.cluss ∧ y.vq = x.vq
      ∧ y.s = x.s ∧ y.m = x.m ∧ y.full = x.full ∧ y.status = x.status ∧ y.pc = x.pc
      ∧ (∀ n : BitVec 5, (∀ m, f.d = .v m → n ≠ s.vnum m) → y.vreg n = x.vreg n)
      ∧ (∀ n, f.d ≠ .k n → y.kreg n = x.kreg n)
      ∧ (∀ n, f.d ≠ .q n → f.a ≠ .q n → f.b ≠ .q n → f.c ≠ .q n → y.qlist n = x.qlist n)
      ∧ ∀ j : Fin 8, x.gens[j].bound = false → y.gens[j] = x.gens[j]

/-- A memory instruction that completes and stores nothing leaves every byte of memory as it was; ST, STP, ZEROL, the
AMOs and CAS change no byte but those at the address that their checks give, and WBL none but its line, which it writes back
where it is a line of a frame in a frame store (01 R30). None changes a v or k register, a flag, the status or another task;
s and m registers change only as destinations (07 R159 to R186). -/
def Obligations.MemoryFrame : Prop :=
  ∀ (f : MemF) (s t : State) (x y : Task), f.hd.u = false → f.a.isS = true →
    s.task? s.cur = some x → t.task? s.cur = some y → t.cx.fate = .done →
    let n := 2 ^ f.size.toNat
    let va := memAddr s f
    let regs : Prop := x.keepsVector y ∧ (∀ r, f.d ≠ .s r → f.c ≠ .s r → regNext f.d ≠ .s r → y.sreg r = x.sreg r)
      ∧ (∀ r, f.d ≠ .m r → f.c ≠ .m r → y.mreg r = x.mreg r)
      ∧ (∀ r, f.d ≠ .q r → f.b ≠ .q r → f.c ≠ .q r → y.qlist r = x.qlist r)
      ∧ (∀ k, k ≠ s.cur → t.task? k = s.task? k)
    (∀ i ∈ noStoreOps, exec (i f) s = .next t → t.mem = s.mem ∧ regs)
      ∧ (∀ tr, exec (.wbl f) s = .next t → s.translate s.myDom (s.memEa f).toNat = .ok tr →
          let line := tr.pa / 128
          s.storesOnly t (line * 128) 128 ∧ regs
            ∧ ((∀ z, s.task? (line / 64) = some z →
                (s.tile z.tile).store.get? line = none ∧ z.resident.getLsbD (line % 64) = false) → t.mem = s.mem))
      ∧ (∀ b s1 pa tr, Reads s f.b b s1 →
          (exec (.st f) s = .next t → physClass pa = .hbm →
              s1.check s1.whoMe (if memAtm f then atomAcc va n true else dataAcc va n true) = .ok pa tr →
              s.storesOnly t pa n ∧ regs)
            ∧ (∀ i ∈ amoOps, exec (i.1 f) s = .next t → ∀ inst,
                s.scopeInst s.myDom s.myTile f.scope.toNat f.scopen.toNat = some inst →
                ({ s1 with wit := [] } : State).check s1.whoMe (rmwAcc va n f.order.toNat inst) = .ok pa tr →
                s.storesOnly t pa n ∧ regs)
            ∧ ∀ c s2, Reads s1 f.c c s2 → exec (.stp f) s = .next t → physClass pa = .hbm →
              s2.check s2.whoMe (dataAcc va 16 true) = .ok pa tr → s.storesOnly t pa 16 ∧ regs)
      ∧ (∀ e v s1 s2 pa tr, ReadsPair s f.b n e s1 → ReadsPair s1 f.c n v s2 → exec (.cas f) s = .next t → ∀ inst,
          s.scopeInst s.myDom s.myTile f.scope.toNat f.scopen.toNat = some inst →
          ({ s2 with wit := [] } : State).check s2.whoMe (rmwAcc va n f.order.toNat inst) = .ok pa tr →
          s.storesOnly t pa n ∧ regs)
      ∧ ∀ pa tr, exec (.zerol f) s = .next t →
          s.check s.whoMe { va := BitVec.ofNat 64 (va.toNat / 128 * 128), n := 128, al := 1, wr := true } = .ok pa tr →
          s.storesOnly t pa 128 ∧ regs

/-- An instruction on cones, messages, tasks, copies or compacts that completes changes no v or k register, no flag, no saved
program point and no register of the device; no s, m or q register but those it names, and of STATUS nothing but what
ARRIVE.w keeps in AP and APCONE. With no stopped waiter at its cone it changes no byte of memory and no register of another
task. SWR changes its own register, and ERET STATUS and the V-stream queue (10 R247 to R283, 21 R401). -/
def Obligations.EngineFrame : Prop :=
  ∀ (s t : State) (x y : Task), s.task? s.cur = some x → t.task? s.cur = some y → t.cx.fate = .done →
    (∀ i ∈ engineOps, ∀ f : EngF, f.hd.u = false → exec (i f) s = .next t →
        x.keepsControl y ∧ s.keepsDevice t ∧ t.doms = s.doms
          ∧ (∀ j, (j < 31 ∨ 42 ≤ j ∨ i f ≠ .arriveW f) → y.status.getLsbD j = x.status.getLsbD j)
          ∧ (∀ r, f.d ≠ .s r → (i f = .rtake f → f.c ≠ .s r) → y.sreg r = x.sreg r)
          ∧ (∀ r, f.d ≠ .m r → (i f = .rtake f → f.c ≠ .m r) → (i f = .mtake f → f.a ≠ .m r) →
              y.mreg r = x.mreg r ∧ y.full.getLsbD r.toNat = x.full.getLsbD r.toNat)
          ∧ (∀ r, f.d ≠ .q r → f.a ≠ .q r → f.b ≠ .q r → f.c ≠ .q r → y.qlist r = x.qlist r)
          ∧ ((∀ n ∈ (s.cone s.myClus (s.coneOf f)).waiters ++ (s.cone s.myClus (s.coneOf f)).lockers,
                (s.task n).live = true) →
              t.mem = s.mem ∧ ∀ n z, n ≠ s.cur → s.task? n = some z → ∃ w, t.task? n = some w ∧ z.sameRegs w))
      ∧ (∀ f : SysF, f.hd.u = false → exec (.swr f) s = .next t →
          y.s = x.s ∧ y.v = x.v ∧ y.k = x.k ∧ y.m = x.m ∧ y.full = x.full ∧ y.pc = x.pc
            ∧ y.faultinfo = x.faultinfo ∧ y.faultaddr = x.faultaddr
            ∧ (f.sysn ≠ 0x10 → y.status = x.status) ∧ (f.sysn ≠ 0x17 → y.fpflags = x.fpflags)
            ∧ (f.sysn ≠ 0x11 → y.ipc = x.ipc) ∧ (f.sysn ≠ 0x12 → y.vpc = x.vpc)
            ∧ (∀ r, f.a ≠ .q r → y.qlist r = x.qlist r)
            ∧ (∀ d, d ≠ s.regDom → t.dom d = s.dom d)
            ∧ (f.sysn ≠ 0x208 → t.mem = s.mem)
            ∧ (f.sysn ≠ 0x208 → ∀ n, n ≠ s.cur → t.task? n = s.task? n))
      ∧ ∀ f : SysF, f.hd.u = false → exec (.eret f) s = .next t →
          x.sameRegs y ∧ y.ipc = x.ipc ∧ y.vpc = x.vpc ∧ y.pc = x.pc ∧ s.keepsDevice t ∧ t.doms = s.doms
            ∧ (x.cfcopy = none → t.mem = s.mem ∧ y.fpflags = x.fpflags)

/-! The Wheel (09). -/

/-- 09 R218, R228 to R246: a Wheel command whose operands pass their checks and whose footprint holds what it needs enters
the tile's own queue, an MMAC queue 8 of its router's four clusters, as the last command there; a far or misaligned
address takes its fault, any other failed check the Wheel-operand fault. MDRAIN completes once no command of the task
is left, ordered after what a boundary that served their reads came after (11 R309). -/
def Obligations.WheelCommandsQueued : Prop :=
  ∀ (f : WhF) (s s1 s2 s3 : State) (a b c : Word), Runs s f.hd →
    Reads s f.a a s1 → Reads s1 f.b b s2 → Reads s2 f.c c s3 →
    let traps : Instr → Trap → Prop := fun i tr =>
      ∃ opc, (encode i).map opcOf = some (BitVec.ofNat 12 opc) ∧ Traps i s opc tr
    let queued : Instr → Nat → WPlan → Prop := fun i q p =>
      addrGood a p.al → addrGood b p.al2 → p.ok = true → s.me.holdsPlan p = true →
      let cmd := s3.wheelCmd i a b c
      (∀ k ∈ cmd.parts, ((s3.wheel k).queue q).length < 16) →
      s3.otherQueueMeets q cmd.spans = false → cmd.spans.any s3.vecWait = false →
      ∃ t, Completes i s t ∧ t = ({ s3 with nextId := s3.nextId + 1 } : State).wheelPush q cmd
        ∧ ∀ k ∈ cmd.parts, ((t.wheel k).queue q).map (·.id) = ((s3.wheel k).queue q).map (·.id) ++ [s3.nextId]
    (∀ x ∈ wheelForms f,
        let p := x.2 a b c
        queued x.1 (s.myTile % 8) p
          ∧ (p.al ≠ 0 → 2 ^ 55 ≤ a.toNat → traps x.1 { cause := 5, addr := a, w := p.wr })
          ∧ (p.al ≠ 0 → a.toNat < 2 ^ 55 → a.toNat % p.al ≠ 0 → traps x.1 { cause := 6, addr := a, w := p.wr })
          ∧ (addrGood a p.al → addrGood b p.al2 → (p.ok = false ∨ s.me.holdsPlan p = false) → traps x.1 { cause := 0x17 }))
      ∧ (s.coopLegal = true → fpCoop s.me.wfsag = true → queued (.mmac f) 8 (planMma f a b c))
      ∧ (addrGood a (planMma f a b c).al → (s.coopLegal = false ∨ fpCoop s.me.wfsag = false) →
          traps (.mmac f) { cause := 0x17 })
      ∧ (s.wheelBusy s.cur = false →
          (s.me.wclk = [] → Completes (.mdrain f) s s)
            ∧ (s.me.wclk ≠ [] → Completes (.mdrain f) s
                ((s.acquire s.cur s.me.wclk).updTask s.cur fun t => { t with wclk := [] })))

/-- 09 R231 to R235, 08 R229: what MLDB, MLDC, MKNOT, MLDS and MZERO leave in the Wheel when the head of a queue runs: the values that
a later command finds in the bat, where the two nonzero values of each pruned group of four stay; the bytes of the spline image and
of the rib; the knot register; zeros; and a third nonzero value in a pruned group is fault cause 4. The bits of a pass lie in its
slots as the model chose (assumption 25). -/
def Obligations.WheelLoads : Prop :=
  ∀ (s : State) (clus : Nat) (c : WCmd) (f : WhF),
    let who := s.whoCmd c
    let row := Word.bits c.c 9 0
    let slot := Word.bits c.c 26 21
    let rib0 := Word.bits c.c 47 32
    let len := f.imm.toNat % 65536 + 1
    let leaves := fun (s1 : State) (w : Wheel) => wheelRun s clus c = .ok (0, s1.setWheel clus w)
    (c.ins = .mknot f → ∃ w, leaves s w ∧ w = { s.wheel clus with kn := w.kn }
        ∧ ∀ i, w.knot i = if i = f.x.toNat % 32 then c.b ++ c.a else (s.wheel clus).knot i)
      ∧ (c.ins = .mzeroSag f → ∃ w, leaves s w ∧ w = { s.wheel clus with sag := w.sag }
        ∧ ∀ r n, n < 256 → w.sagAt r n = if row ≤ r ∧ r < row + Word.bits c.c 20 10 then 0 else (s.wheel clus).sagAt r n)
      ∧ (c.ins = .mzeroBat f → ∃ w, leaves s w ∧ w = { s.wheel clus with tags := w.tags }
        ∧ (∀ t, w.tag t = if slot ≤ t ∧ t < slot + f.imm.toNat % 128 then .zero else (s.wheel clus).tag t)
        ∧ ∀ at' fb p24 k n, w.tag (at' + (if p24 then (2 * fmtWidth fb + 4) * (k / 4 * 256 + n)
            else fmtWidth fb * (k * 256 + n)) / 32768) = .zero → w.bVal at' fb p24 k n = .zero false)
      ∧ (c.ins = .mzeroRib f → ∃ w, leaves s w ∧ w = { s.wheel clus with rib := w.rib }
        ∧ ∀ x, w.rib.get x = if rib0 ≤ x ∧ x < rib0 + len then 0 else (s.wheel clus).rib.get x)
      ∧ (c.ins = .mlds f → ∀ bs s1, s.readRange who c.a.toNat len = .ok (bs, s1) →
        ∃ w, leaves s1 w ∧ w = { s1.wheel clus with rib := w.rib }
          ∧ ∀ x, w.rib.get x = if rib0 ≤ x ∧ x < rib0 + len then bs.getD (x - rib0) 0 else (s1.wheel clus).rib.get x)
      ∧ (c.ins = .mldc f → ∀ i0 ni bs s1, i0 = Sys2Proof.Nat.bits f.imm.toNat 4 0 → ni = Sys2Proof.Nat.bits f.imm.toNat 12 8 → 0 < ni →
        s.readRange who c.a.toNat (10240 * ni) = .ok (bs, s1) →
        let lo := 4096 * slot + 10240 * i0
        let touched := fun (t : Nat) => lo / 4096 ≤ t ∧ t ≤ (lo + 10240 * ni - 1) / 4096
        ∃ w, leaves s1 w ∧ w = { s1.wheel clus with bat := w.bat, tags := w.tags }
          ∧ (∀ t, w.tag t = if touched t then .spline else (s1.wheel clus).tag t)
          ∧ ∀ x, w.bat.get x =
              if lo ≤ x ∧ x < lo + 10240 * ni then bs.getD (x - lo) 0
              else if touched (x / 4096) ∧ (s1.wheel clus).tag (x / 4096) ≠ .spline then 0 else (s1.wheel clus).bat.get x)
      ∧ (c.ins = .mldb f → ∀ rows s1, wheelPair f.fmta.toNat f.fmtb.toNat = true →
        let fb := f.fmtb.toNat
        let k := wheelK f.fmta.toNat
        let np := Word.bits c.c 30 27
        let spp := divUp (if f.p24 then 16 * k * (fmtWidth fb + 2) else 32 * k * fmtWidth fb) 4096
        s.readView who c.a.toNat (layoutOf c.b) (fmtWidth fb) (k * np) 256 = .ok (rows, s1) →
        let val := fun (r n : Nat) => dec fb ((rows.getD r []).getD n 0)
        let zero := fun (x : XV) => ∃ neg, x = .zero neg
        let crowded := f.p24 = true ∧ ∃ u n i j l, 4 * u + 3 < k * np ∧ n < 256 ∧ i < j ∧ j < l ∧ l < 4
          ∧ ¬ zero (val (4 * u + i) n) ∧ ¬ zero (val (4 * u + j) n) ∧ ¬ zero (val (4 * u + l) n)
        (crowded → wheelRun s clus c = .error (.fault 4 0 false, s))
          ∧ (¬ crowded → ∃ w, leaves s1 w ∧ w = { s1.wheel clus with bat := w.bat, tags := w.tags }
              ∧ (∀ t, w.tag t = if slot ≤ t ∧ t < slot + np * spp then .b f.fmta.toNat fb f.p24 ((t - slot) / spp)
                  else (s1.wheel clus).tag t)
              ∧ (∀ x, (x < 4096 * slot ∨ 4096 * (slot + np * spp) ≤ x) → w.bat.get x = (s1.wheel clus).bat.get x)
              ∧ ∀ p r n, p < np → r < k → n < 256 →
                  (¬ (f.p24 = true ∧ zero (val (k * p + r) n)) → w.bVal (slot + p * spp) fb f.p24 r n = val (k * p + r) n)
                    ∧ (f.p24 = true → zero (val (k * p + r) n) → w.bVal (slot + p * spp) fb f.p24 r n = .zero false)))

/-- 05 R127 to R135, 09 R236 to R245: what MMA, MMAC, MSPL, MSDX, MSGRAD, MREFINE, MRD, MWR and MSTAT compute when the head of a queue
runs. A group's products and their sum are exact and each accumulation rounds once; a tag that the command does not expect is
fault cause 5, a knot register that is not set cause 2, one that cannot be refined cause 3. -/
def Obligations.WheelComputes : Prop :=
  (∀ (ab : List (XV × XV)) (ea eb : Nat), ab ≠ [] →
      let r := wheelGroup ab ea eb
      let rat := fun (x : XV) => match x with
        | .fin q => q
        | _ => (0 : Rat)
      let finite := fun (x : XV) => (∃ neg, x = .zero neg) ∨ ∃ q, q ≠ 0 ∧ x = .fin q
      let sum := (ab.map fun p => rat p.1 * rat p.2).sum
      ((ea = 255 ∨ eb = 255) → r = (.nan false, 0))
        ∧ (ea < 255 → eb < 255 →
            ((∃ p ∈ ab, p.1.isNaN = true ∨ p.2.isNaN = true) → r.1 = .nan false)
              ∧ ((∃ p ∈ ab, (∃ x y, p = (.inf x, .zero y) ∨ p = (.zero x, .inf y))) → r.1 = .nan false ∧ r.2.getLsbD 0 = true)
              ∧ ((∀ p ∈ ab, finite p.1 ∧ finite p.2) → r.2 = 0
                  ∧ (sum ≠ 0 → r.1 = .fin (sum * pow2 ((ea : Int) + eb - 254)))
                  ∧ (sum = 0 → r.1 = .zero (ab.all fun p => (XV.mul p.1 p.2).1 == .zero true)))))
    ∧ (∀ (x : FX) (kn : Knot) (k : Cell), x.1.isNaN = false →
      let t := (x.sub kn.lo).mul kn.invh
      let base := k.wb.mul x
      (∀ q, t.1 = .fin q → 0 < q → q < kn.g →
          splineCell x kn k = (splineSum (splineBasis (XV.ofRat (q - q.floor), t.2) kn.deg) k.coef q.floor.toNat).add base)
        ∧ (t.1 = .zero false → 0 < kn.g →
            splineCell x kn k = (splineSum (splineBasis (.zero false, t.2) kn.deg) k.coef 0).add base)
        ∧ ∀ below : Bool, (if below then t.1 = .inf true ∨ ∃ q, t.1 = .fin q ∧ q < 0
              else t.1 = .inf false ∨ ∃ q, t.1 = .fin q ∧ 0 < q ∧ kn.g ≤ q) →
            let n := if below then 0 else kn.g - 1
            let e := if below then 0 else kn.g
            let edge : FX := (XV.ofRat (if below then 0 else 1), t.2 ||| fOUT)
            let se := splineSum (splineBasis edge kn.deg) k.coef n
            (kn.mode = 2 → splineCell x kn k = (base.1, base.2 ||| (t.2 ||| fOUT)))
              ∧ (kn.mode = 0 → splineCell x kn k = se.add base)
              ∧ (kn.mode = 1 → splineCell x kn k
                  = (se.add ((splineSum (splineDbasis edge kn.deg) k.coef n).mul (t.sub (fxQ e)))).add base))
    ∧ ∀ (s : State) (clus : Nat) (c : WCmd) (f : WhF),
      let who := s.whoCmd c
      let m := Word.bits c.c 20 10
      let row := Word.bits c.c 9 0
      let slot := Word.bits c.c 26 21
      let rib0 := Word.bits c.c 47 32
      let rib1 := Word.bits c.c 63 48
      let start := fun (w : Wheel) (r n : Nat) => if f.acc then fx (w.sagAt r n) else ((.zero true, 0) : FX)
      let raised := fun (fl : Flags) (p : Flags → Prop) => ∀ i, i < 9 → (fl.getLsbD i = true ↔ ∃ x, p x ∧ x.getLsbD i = true)
      let others := fun (w w' : Wheel) (p : Nat → Nat → Prop) => w' = { w with sag := w'.sag }
        ∧ ∀ r n, n < 256 → ¬ p r n → w'.sagAt r n = w.sagAt r n
      let fa := f.fmta.toNat
      let fb := f.fmtb.toNat
      let k := wheelK fa
      let g := wheelG fa fb
      let ng := k * Word.bits c.c 30 27 / g
      let spp := wheelSpp fa fb f.p24
      let tagged := fun (w : Wheel) => ∀ p i, p < Word.bits c.c 30 27 → i < spp →
        w.tag (slot + p * spp + i) = .b fa fb f.p24 p ∨ w.tag (slot + p * spp + i) = .zero
      let product := fun (w w' : Wheel) (rows : List (List Nat)) (fl : Flags) => ∃ acc : Nat → Nat → Nat → FX,
        others w w' (fun r _ => row ≤ r ∧ r < row + m)
          ∧ raised fl (fun x => ∃ r n, r < m ∧ n < 256 ∧ x = (acc r n ng).2)
          ∧ ∀ r n, r < m → n < 256 →
            acc r n 0 = start w (row + r) n
              ∧ (∀ q, q < ng → acc r n (q + 1) = (acc r n q).add (wheelGroup
                  ((List.range g).map fun u => (dec fa ((rows.getD r []).getD (q * g + u) 0),
                    w.bVal (slot + (q * g + u) / k * spp) fb f.p24 ((q * g + u) % k) n))
                  (if f.x.getLsbD 1 then (w.rib.get (rib0 + r * ng + q)).toNat else 127)
                  (if f.x.getLsbD 0 then (w.rib.get (rib1 + 256 * q + n)).toNat else 127)))
              ∧ w'.sagAt (row + r) n = exactCode 0 (acc r n ng).1 % 2 ^ 32
      let ins := (List.range 24).filter fun i => f.imm.getLsbD i
      let ready := (∀ i ∈ ins, (knotOf ((s.wheel clus).knot i)).g ≠ 0)
        ∧ ∀ t, t < 60 → (s.wheel clus).tag (slot + t) = .spline ∨ (s.wheel clus).tag (slot + t) = .zero
      let codeOf := fun (x : FX) => exactCode 0 x.1 % 2 ^ 32
      (c.ins = .mma f →
          (¬ tagged (s.wheel clus) → wheelRun s clus c = .error (.fault 5 0 false, s))
            ∧ (tagged (s.wheel clus) → ∀ rows s1, s.readView who c.a.toNat (layoutOf c.b) (fmtWidth fa) m (k * Word.bits c.c 30 27) = .ok (rows, s1) →
                ∃ fl w, wheelRun s clus c = .ok (fl, s1.setWheel clus w) ∧ product (s1.wheel clus) w rows fl))
        ∧ (c.ins = .mmac f → ∀ rows, c.rows = some rows → rows.length = m →
          ((∃ j, j < 4 ∧ ¬ tagged (s.wheel (c.clus / 4 * 4 + j))) → wheelRun s clus c = .error (.fault 5 0 false, s))
            ∧ ((∀ j, j < 4 → tagged (s.wheel (c.clus / 4 * 4 + j))) → ∃ fl t, wheelRun s clus c = .ok (fl, t)
                ∧ ∃ part : Nat → Flags, raised fl (fun x => ∃ j, j < 4 ∧ x = part j)
                  ∧ ∀ j, j < 4 → product (s.wheel (c.clus / 4 * 4 + j)) (t.wheel (c.clus / 4 * 4 + j)) rows (part j)))
        ∧ ((c.ins = .mspl f ∨ c.ins = .msdx f ∨ c.ins = .msgrad f) →
          ((∃ i ∈ ins, (knotOf ((s.wheel clus).knot i)).g = 0) → wheelRun s clus c = .error (.fault 2 0 false, s))
            ∧ (¬ ready → (∀ i ∈ ins, (knotOf ((s.wheel clus).knot i)).g ≠ 0) → wheelRun s clus c = .error (.fault 5 0 false, s)))
        ∧ (ready → ∀ xs s1, readX s who c.a.toNat m ins = .ok (xs, s1) →
          let x := fun (r i : Nat) => fx ((xs.getD r []).getD i 0)
          let w := s1.wheel clus
          (c.ins = .mspl f → ∃ fl w', wheelRun s clus c = .ok (fl, s1.setWheel clus w')
              ∧ others w w' (fun r _ => row ≤ r ∧ r < row + m)
              ∧ ∃ acc : Nat → Nat → FX, raised fl (fun y => ∃ r n, r < m ∧ n < 256 ∧ y = (acc r n).2)
                ∧ ∀ r n, r < m → n < 256 →
                  acc r n = ins.foldl (fun a i => a.add (splineCell (x r i) (knotOf (w.knot i)) (w.cell slot i n))) (start w (row + r) n)
                    ∧ w'.sagAt (row + r) n = codeOf (acc r n))
            ∧ ∀ gs s2, readG s1 who c.b.toNat m = .ok (gs, s2) →
              let gr := fun (r j : Nat) => fx ((gs.getD r []).getD j 0)
              let w := s2.wheel clus
              (c.ins = .msdx f → ∃ fl w', wheelRun s clus c = .ok (fl, s2.setWheel clus w')
                  ∧ others w w' (fun r n => row ≤ r ∧ r < row + m ∧ n ∈ ins)
                  ∧ ∃ out : Nat → Nat → FX, raised fl (fun y => ∃ r i, r < m ∧ i ∈ ins ∧ y = (out r i).2)
                    ∧ ∀ r i, r < m → i ∈ ins →
                      let dx := (List.range 256).foldl (fun (a : FX) j =>
                        a.add ((gr r j).mul (splineFprime (x r i) (knotOf (w.knot i)) (w.cell slot i j)))) (XV.zero true, 0)
                      out r i = (if f.acc then (fx (w.sagAt (row + r) i)).add dx else dx)
                        ∧ w'.sagAt (row + r) i = codeOf (out r i))
                ∧ (c.ins = .msgrad f → (∀ i ∈ ins, knotOk (w.knot i) = true) → ∃ fl w', wheelRun s clus c = .ok (fl, s2.setWheel clus w')
                  ∧ others w w' (fun r _ => ∃ i ∈ ins, row + 20 * i ≤ r ∧ r < row + 20 * i + 20)
                  ∧ ∃ (code : Nat → Nat → Nat → Nat → Nat) (up : Nat → Nat → Nat → Nat → Option FX),
                    raised fl (fun y => ∃ r i j, r < m ∧ i ∈ ins ∧ j < 256 ∧
                      (y = (gradWeights (x r i) (knotOf (w.knot i))).2.2 ∨ ∃ n z, n < 20 ∧ up r i n j = some z ∧ y = z.2))
                    ∧ ∀ i ∈ ins, ∀ j, j < 256 → ∀ n, n < 20 →
                      code 0 i n j = (if f.acc then w.sagAt (row + 20 * i + n) j else 0x80000000)
                        ∧ (∀ r, r < m →
                          let gw := gradWeights (x r i) (knotOf (w.knot i))
                          let old := fx (code r i n j)
                          up r i n j =
                            (if n = 19 then some (old.add ((gr r j).mul (x r i)))
                            else if gw.1 ≤ n ∧ n < gw.1 + gw.2.1.length then
                              some (old.add ((gr r j).mul (gw.2.1.getD (n - gw.1) (.zero false, 0))))
                            else none)
                            ∧ code (r + 1) i n j = (up r i n j).elim (code r i n j) codeOf)
                        ∧ w'.sagAt (row + 20 * i + n) j = code m i n j))
        ∧ (c.ins = .mrefine f →
          let w := s.wheel clus
          let i := f.x.toNat % 32
          let kn := knotOf (w.knot i)
          let lo := 4096 * slot + 10240 * i
          let image := fun (t : Nat) => lo / 4096 ≤ t ∧ t ≤ (lo + 10239) / 4096
          let good := ∀ t, image t → w.tag t = .spline ∨ w.tag t = .zero
          let doubles := ∃ q, kn.invh.1 = .fin q ∧ q < pow2 127
          (kn.g = 0 → wheelRun s clus c = .error (.fault 2 0 false, s))
            ∧ (kn.g ≠ 0 → (8 < kn.g ∨ ¬ doubles) → wheelRun s clus c = .error (.fault 3 0 false, s))
            ∧ (0 < kn.g → kn.g ≤ 8 → doubles → ¬ good → wheelRun s clus c = .error (.fault 5 0 false, s))
            ∧ (knotOk (w.knot i) = true → kn.g ≤ 8 → doubles → good → ∃ fl w', wheelRun s clus c = .ok (fl, s.setWheel clus w')
              ∧ w' = { w with bat := w'.bat, tags := w'.tags, kn := w'.kn }
              ∧ (∀ t, w'.tag t = if image t then .spline else w.tag t)
              ∧ (∀ l, l ≠ i → w'.knot l = w.knot l)
              ∧ (let kn' := knotOf (w'.knot i)
                kn'.g = 2 * kn.g ∧ kn'.deg = kn.deg ∧ kn'.mode = kn.mode ∧ kn'.lo = kn.lo
                  ∧ ∀ q, kn.invh.1 = .fin q → kn'.invh.1 = .fin (2 * q))
              ∧ (∀ j l, j < 256 → l < 2 * kn.g + kn.deg →
                let h := l / 2
                let terms : List (Nat × Nat) × Nat :=
                  if kn.deg = 3 then (if l % 2 = 1 then ([(1, h), (6, h + 1), (1, h + 2)], 8) else ([(1, h), (1, h + 1)], 2))
                  else if kn.deg = 2 then (if l % 2 = 1 then ([(1, h), (3, h + 1)], 4) else ([(3, h), (1, h + 1)], 4))
                  else (if l % 2 = 1 then ([(1, h), (1, h + 1)], 2) else ([(1, h)], 1))
                w'.bat.num (lo + 40 * j + 2 * l) 2 = (refineCoef (w.cell slot i j).coef terms.1 terms.2).1 % 65536)
              ∧ ∀ x, (∀ j l, j < 256 → l < 2 * kn.g + kn.deg → ¬ (lo + 40 * j + 2 * l ≤ x ∧ x < lo + 40 * j + 2 * l + 2)) →
                w'.bat.get x = if image (x / 4096) ∧ w.tag (x / 4096) = .zero then 0 else w.bat.get x))
        ∧ (c.ins = .mrd f →
          let col0 := Sys2Proof.Nat.bits f.imm.toNat 7 0
          let ncol := Sys2Proof.Nat.bits f.imm.toNat 16 8
          let w := s.wheel clus
          let wd := fmtWidth fa
          let at' := fun (r j : Nat) => layoutBit c.a.toNat (layoutOf c.b) wd r j
          let code := fun (r j : Nat) =>
            let v := fx (w.sagAt (row + r) (col0 + j))
            (roundFmt (if f.x.getLsbD 0 then v.mul (fx (w.rib.num (rib0 + 4 * (col0 + j)) 4)) else v).1 fa (f.x.toNat / 2 % 8)
              (if 8 ≤ wd then at' r j / 8 / (wd / 8) % 4096 else at' r j / wd % 4096) true (f.x.getLsbD 4)).1
          let cells := (List.range m).flatMap fun r => (List.range ncol).map fun j => (r, j)
          ∀ pl : Nat × Nat → List (Acc × Nat × Tr), (∀ x ∈ cells, s.placeBits who (at' x.1 x.2) wd = .ok (pl x)) →
            ∃ fl, wheelRun s clus c
              = .ok (fl, cells.foldl (fun st x => st.putBits who (pl x) (at' x.1 x.2) wd (code x.1 x.2)) s))
        ∧ (c.ins = .mwr f →
          let col0 := Sys2Proof.Nat.bits f.imm.toNat 7 0
          let ncol := Sys2Proof.Nat.bits f.imm.toNat 16 8
          col0 + ncol ≤ 256 →
          ∀ rows s1, s.readView who c.a.toNat (layoutOf c.b) (fmtWidth fa) m ncol = .ok (rows, s1) →
            ∃ fl w', wheelRun s clus c = .ok (fl, s1.setWheel clus w')
              ∧ others (s1.wheel clus) w' (fun r n => row ≤ r ∧ r < row + m ∧ col0 ≤ n ∧ n < col0 + ncol)
              ∧ ∃ out : Nat → Nat → FX, raised fl (fun y => ∃ r j, r < m ∧ j < ncol ∧ y = (out r j).2)
                ∧ ∀ r j, r < m → j < ncol →
                  let x := dec fa ((rows.getD r []).getD j 0)
                  out r j = (if f.acc then (fx ((s1.wheel clus).sagAt (row + r) (col0 + j))).add (x, x.sigFlags) else (x, x.sigFlags))
                    ∧ w'.sagAt (row + r) (col0 + j) = codeOf (out r j))
        ∧ (c.ins = .mstat f → ∀ t, s.writeRange who c.a.toNat (natBytes s.cycle.toNat 8 ++ natBytes (s.task c.task).wdone.toNat 8
            ++ natBytes (s.task c.task).wdamp.toNat 8 ++ natBytes (s.wqstat c.task).toNat 8 ++ List.replicate 32 0) = .ok t →
          wheelRun s clus c = .ok (0, t))

/-! Copies, cones, messages and tasks (10). -/

/-- 10 R249 to R258, 14 R349: CPY and CPYR with a good descriptor enter their queue as its last command, with their
promise, which d receives; a bad descriptor takes the copy-format fault; CPYQF enters a fence; SLEEPT whose time has
come completes when no copy promised by then is late, and one whose time is ahead waits. PCIe spaces are open to
copies as in assumption 40. That SLEEPT waits for no copy that has faulted and for no queue fence is the choice of assumption 64. -/
def Obligations.CopyCommands : Prop :=
  ∀ (f : EngF) (s : State), Runs s f.hd → s.relWait = false → s.copyFits →
    let va := s.effAddr f.a f.imm
    let q := f.que.toNat
    let enters : Instr → State → Nat → Word → Option Word → Word → Prop := fun i u x layout dest recv =>
      let ctl := field64 x 2
      let dims := copyDims (numAt x)
      let total := (copyTotal dims * fmtWidth (Word.bits ctl 9 5) + 7) / 8
      let k := u.clus u.myClus
      let extra := match dest with
        | some d => if twDev d = u.devnum.toNat then 0 else (u.die (dieOf u.myTile)).xdelay.toNat
        | none => 0
      let promise : Word := BitVec.ofNat 64 (promiseAt u.cycle (k.lastPromise.getD q 0)
        (copyFlits (Word.bits ctl 4 0) (Word.bits ctl 9 5) (Word.bits ctl 15 14) dims) k.throttle extra (decide (2 ^ 20 < total)))
      copyOk (numAt x) layout = true →
        ∃ (v : State) (c : Copy), (v.clus u.myClus).copies = k.copies ++ [c]
          ∧ c.task = u.cur ∧ c.mask = BitVec.ofNat 8 (2 ^ q) ∧ c.desc = va ∧ c.run = .queued ∧ c.done = 0
          ∧ c.promise = promise ∧ c.heavy = decide (2 ^ 20 < total) ∧ v.mem = u.mem
          ∧ c.op = .copy (field64 x 0) (field64 x 1) (field64 x 3) (Word.bits ctl 4 0) (Word.bits ctl 9 5)
              (Word.bits ctl 15 14) (Word.bits ctl 18 16) (bit1 ctl 19) dims layout dest recv
          ∧ ∀ t, Writes v f.d promise t → Completes i s t
    (∀ layout s1 x s2, Reads s f.b layout s1 → s1.spanWait va 128 false = false →
        s1.readStruct s1.whoMe va 128 32 = .ok (x, s2) →
        enters (.cpy f) s2 x layout none 0
          ∧ (copyOk (numAt x) layout = false → Traps (.cpy f) s 0x900 { cause := 0x1A, addr := va }))
      ∧ (∀ dest recv s1 s2 x s3, Reads s f.b dest s1 → Reads s1 f.c recv s2 →
          twBad dest = false → twCid dest = 0 → twBad recv = false → s2.spanWait va 128 false = false →
          s2.readStruct s2.whoMe va 128 32 = .ok (x, s3) → enters (.cpyr f) s3 x 0 (some dest) recv)
      ∧ (∃ (v : State) (c : Copy),
          let p := (maskQueues (f.imm.setWidth 8)).foldl
            (fun m q => Nat.max m ((s.clus s.myClus).lastPromise.getD q 0).toNat) s.cycle.toNat
          (v.clus s.myClus).copies = (s.clus s.myClus).copies ++ [c] ∧ c.op = .fence ∧ c.mask = f.imm.setWidth 8
            ∧ c.promise = BitVec.ofNat 64 p ∧ ∀ t, Writes v f.d (BitVec.ofNat 64 p) t → Completes (.cpyqf f) s t)
      ∧ ∀ a s1, Reads s f.a a s1 →
          (a.toNat ≤ s.cycle.toNat → waitKind s.me.wait ≠ 3 →
            (∀ c ∈ (s.clus s.myClus).copies, c.task = s.cur → c.ended = false → c.promise.toNat ≤ a.toNat →
              c.late = true ∨ c.run = .faulted ∨ c.op = .fence) →
            ∃ t, Completes (.sleept f) s t ∧ t.mem = s.mem ∧ t.me.s = s1.me.s)
          ∧ (s.cycle.toNat < a.toNat →
            ∃ t, exec (.sleept f) s = .next (State.setHeld t) ∧ waitKind t.me.wait = 3 ∧ t.me.deadline = some a)

/-- 10 R260 to R268: the cone instructions complete. An arrival counts, and the last one flips the phase; CWAIT, ARRIVE.w
and MUTEXL complete with 0 where nothing keeps them, with the result of a wait that has ended, and otherwise wait;
MUTEXU passes the mutex to the task that has waited longest to hold it, and wakes those that wait for the phase. That an arrival
that does not wait still reads its deadline operand under TMO is the choice of assumption 20. -/
def Obligations.ConeOperations : Prop :=
  ∀ (f : EngF) (s : State), Runs s f.hd →
    let cid := s.coneOf f
    let k := s.myClus
    let c := s.cone k cid
    let ok := fun (m : Nat) => c.init = true ∧ c.dom = s.myDom ∧ c.mode = m ∧ s.coneReserved k cid = false
    let room := fun (n : Nat) => c.a ≠ c.e ∧ i32Ok (c.pb + n) = true
    (∀ a s1, Reads s f.a a s1 → s.coneReserved k cid = false → (c.init = true → c.dom = s.myDom ∨ s.myDom = 0) →
        c.waiters = [] → c.lockers = [] → (f.x.toNat % 4 = 0 → a.toNat % 65536 ≠ 0) →
        ∃ t, Completes (.cinit f) s t ∧ t.cone k cid = { Cone.reset with
          init := true, mode := f.x.toNat % 4, dom := s.myDom, e := if f.x.toNat % 4 = 0 then a.toNat % 65536 else 0 })
      ∧ (∀ d s1 r s2, ReadsDeadline s f d s1 → Releases s1 f.rlx r s2 → ok 0 → room 0 →
          (∃ t, Completes (.arrive f) s t ∧ c.arrived 0 (t.cone k cid))
            ∧ (s1.woken 1 = none → bit1 s.me.status 31 = false → c.a + 1 = c.e → c.pb = 0 →
                ∃ u : State, c.arrived 0 (u.cone k cid) ∧ ∀ t, Writes u f.d 0 t → Completes (.arriveW f) s t)
            ∧ (s1.woken 1 = none → bit1 s.me.status 31 = false → ¬ (c.a + 1 = c.e ∧ c.pb = 0) → s.past d = false →
                ∃ u, exec (.arriveW f) s = .next (State.setHeld u) ∧ (u.cone k cid).a = c.a + 1
                  ∧ s.cur ∈ (u.cone k cid).waiters ∧ waitKind u.me.wait = 1 ∧ bit1 u.me.status 31 = true))
      ∧ (∀ d s1 r s2 t, ReadsDeadline s f d s1 → s1.woken 1 = some (r, s2) →
          Writes s2.clearAp f.d (BitVec.ofNat 64 r) t → Completes (.arriveW f) s t)
      ∧ (∀ b s1 d s2 r s3, Reads s f.b b s1 → twBad b = false →
          (ReadsDeadline s1 f d s2 → Releases s2 f.rlx r s3 → Completes (.arriveRmt f) s (s3.sendArrival b false r))
            ∧ (Releases s1 f.rlx r s3 → Completes (.evsigRmt f) s (s3.sendArrival b true r)))
      ∧ (∀ a s1 r s2, Reads s f.a a s1 → a.toNat < 2 ^ 31 → Releases s1 f.rlx r s2 → ok 0 → room a.toNat →
          ∃ t, Completes (.expect f) s t ∧ c.arrived a.toNat (t.cone k cid))
      ∧ (∀ a s1 d s2, Reads s f.a a s1 → ReadsDeadline s1 f d s2 →
          (∀ r s3 t, s2.woken 1 = some (r, s3) → Writes s3 f.d (BitVec.ofNat 64 r) t → Completes (.cwait f) s t)
            ∧ ((∃ m, m < 3 ∧ ok m) → s2.woken 1 = none →
                (c.phase ≠ a.getLsbD 0 → ∀ t, Writes (s2.acquire s.cur c.done) f.d 0 t → Completes (.cwait f) s t)
                  ∧ (c.phase = a.getLsbD 0 → s.past d = true → ∀ t, Writes s2 f.d 1 t → Completes (.cwait f) s t)
                  ∧ (c.phase = a.getLsbD 0 → s.past d = false →
                      ∃ u, exec (.cwait f) s = .next (State.setHeld u) ∧ s.cur ∈ (u.cone k cid).waiters
                        ∧ waitKind u.me.wait = 1 ∧ u.me.deadline = d)))
      ∧ ((∃ m, m < 3 ∧ ok m) → ∀ t,
          Writes (s.acquire s.cur c.done) f.d
            (if f.x.getLsbD 1 then BitVec.ofInt 64 c.pb
             else BitVec.ofNat 64 (c.e * 2 ^ 48 + c.a * 2 ^ 32 + 8 + c.mode * 2 + if c.phase then 1 else 0)) t →
          Completes (.ctest f) s t)
      ∧ (∀ r s1, Releases s f.rlx r s1 → ok 1 →
          ∃ t, Completes (.evsig f) s t ∧ (t.cone k cid).phase = !c.phase ∧ (t.cone k cid).waiters = [])
      ∧ (∀ d s1, ReadsDeadline s f d s1 →
          (∀ r s2 t, s1.woken 1 = some (r, s2) → Writes s2 f.d (BitVec.ofNat 64 r) t → Completes (.mutexl f) s t)
            ∧ (s1.woken 1 = none → ok 2 → c.holder = 0 →
                ∃ u : State, (u.cone k cid).holder = s.myHandle ∧ ∀ t, Writes u f.d 0 t → Completes (.mutexl f) s t))
      ∧ (ok 2 → c.holder = s.myHandle → s.relWait = false →
          ∃ t, Completes (.mutexu f) s t ∧ (t.cone k cid).phase = !c.phase ∧ (t.cone k cid).waiters = []
            ∧ (c.lockers = [] → (t.cone k cid).holder = 0)
            ∧ ∀ w l, c.lockers = w :: l →
              (t.cone k cid).holder = handleOf ((s.release s.cur).2.task w).gen w ∧ (t.cone k cid).lockers = l)

/-- 10 R270 to R278, 02 R48 to R71: MSEND sends and leaves d to its answer; MTAKE, MPEEK and MWAITF read message
registers; SPAWN and GANG enter their record or gang; JOIN subtracts from its counter, and the one that brings it to zero reads
the record and pushes it, to its queue or the join holding buffer, or waits for a place, or keeps the subtraction and traps where the
record is bad; RINIT and RTAKE are answered by the wire unit; TSELF gives the handle. What makes a record bad is read as in
assumption 81, and FAULTADDR of a bad one is that of assumption 51. -/
def Obligations.MessageTaskOperations : Prop :=
  ∀ (f : EngF) (s : State), Runs s f.hd →
    let va := s.effAddr f.a f.imm
    (∀ h s1 b s2 words s3 dev s4, s.me.sends.length < 16 → waitKind s.me.wait ≠ 6 →
        Reads s f.a h s1 → Reads s1 f.b b s2 →
        (if f.blk then ∃ x, s2.spanWait b (8 * f.words) false = false ∧ s2.readStruct s2.whoMe b (8 * f.words) 8 = .ok (x, s3)
            ∧ words = (List.range f.words).map fun i => (BitVec.ofNat 64 (x / 2 ^ (64 * i)) : Word)
          else words = [b] ∧ s3 = s2) →
        (if f.xdev then ∃ v, Reads s3 f.c v s4 ∧ dev = v.toNat else s4 = s3 ∧ dev = s3.devnum.toNat) →
        s4.relWait = false →
        ∃ t m, Completes (.msend f) s t ∧ t.me.sends = s4.me.sends ++ [(s4.nextId, f.d, f.trapm)] ∧ t.sends = s4.sends ++ [m]
          ∧ m.id = s4.nextId ∧ m.handle = h ∧ m.reg = f.mr ∧ m.words = words ∧ m.blk = f.blk ∧ m.dev = dev
          ∧ m.status = (if dev = s4.devnum.toNat ∨ s4.uetReach dev = true then none else some 2) ∧ t.me.s = s4.me.s)
      ∧ (∀ n, f.a = .m n →
          (s.me.isFull n.toNat = true →
              ∀ t, Writes ((s.acquire s.cur (s.me.mclk.toList.getD n.toNat [])).upd fun x =>
                (x.setM n.toNat s.me.m[n.toNat] false []).refill n.toNat) f.d s.me.m[n.toNat] t → Completes (.mtake f) s t)
            ∧ (s.me.isFull n.toNat = false → ∀ t, Writes s f.d s.me.m[n.toNat] t → Completes (.mtake f) s t)
            ∧ (s.me.isFull n.toNat = true →
                ∀ t, Writes (s.acquire s.cur (s.me.mclk.toList.getD n.toNat [])) f.d 1 t → Completes (.mpeek f) s t)
            ∧ (s.me.isFull n.toNat = false → ∀ t, Writes s f.d 0 t → Completes (.mpeek f) s t)
            ∧ ∀ d s1, ReadsDeadline s f d s1 → waitKind s.me.wait ≠ 2 →
              (s.me.isFull n.toNat = true →
                ∀ t, Writes (s1.acquire s.cur (s.me.mclk.toList.getD n.toNat [])) f.d 0 t → Completes (.mwaitf f) s t)
              ∧ (s.me.isFull n.toNat = false → s.past d = true → ∀ t, Writes s1 f.d 1 t → Completes (.mwaitf f) s t)
              ∧ (s.me.isFull n.toNat = false → s.past d = false →
                  ∃ u, exec (.mwaitf f) s = .next (State.setHeld u) ∧ waitKind u.me.wait = 2 ∧ u.me.deadline = d))
      ∧ (∀ x s1, s.relWait = false → s.spanWait va 32 false = false → s.readStruct s.whoMe va 32 32 = .ok (x, s1) →
          let ctl := field64 x 3
          let die := s1.recordDie ctl s.myTile
          let p := ctlPrio ctl
          (s1.recordOk (field64 x 0) (field64 x 1) ctl = true → (s.myDom = 0 ∨ ctlDom ctl = s.myDom) →
              ((s1.die die).hasRoom p = true →
                ∃ (u : State) (r : DRec), (u.die die).queue p = (s1.die die).queue p ++ [r] ∧ r.code = field64 x 0
                  ∧ r.frame = field64 x 1 ∧ r.arg = field64 x 2 ∧ r.ctl = ctl ∧ u.mem = s1.mem
                  ∧ ∀ t, Writes u f.d 0 t → Completes (.spawn f) s t)
              ∧ ((s1.die die).hasRoom p = false → if f.trapm then Traps (.spawn f) s 0xA00 { cause := 0x23, detail := 3 }
                  else ∀ t, Writes s1 f.d 1 t → Completes (.spawn f) s t))
            ∧ (let set := field64 x 2; s.gangOk (field64 x 0) set (field64 x 3) = true → (s.myDom = 0 ∨ setDom set = s.myDom) →
                (s.gangs.filter fun g => g.2.pending && !g.2.started).length < 256 →
                ∃ (u : State) (g : Gang), u.gang? s1.nextId = some g ∧ g.code = field64 x 0 ∧ g.arg = field64 x 1
                  ∧ g.pending = true ∧ g.joinp = field64 x 3 ∧ g.prio = setPrio set
                  ∧ g.tiles = s.gangTiles (setCidx set) (setCcnt set) (setTmask set)
                  ∧ ∀ t, Writes u f.d 0 t → Completes (.gang f) s t))
      ∧ (∀ n s1 pa tr, (if f.bit32 then Reads s f.b n s1 else n = 1 ∧ s1 = s) → s.relWait = false →
          va.toNat < 2 ^ 55 → va.toNat % 16 = 0 → s1.rmwCheck s.whoMe va 8 (some .dev) = .ok pa tr →
          let count : Word := BitVec.ofNat 64 (s.mem.num pa 8)
          (n.toNat ≤ count.toNat → (count ≠ n ∨ n = 0) →
              ∃ u : State, u.mem = s.mem.write pa (natBytes (count - n).toNat 8) ∧ u.me.s = s1.me.s
                ∧ ∀ t, Writes u f.d (count - n) t → Completes (.join f) s t)
            ∧ (count.toNat < n.toNat → Traps (.join f) s 0xA01 { cause := 0x10, addr := va, w := true })
            ∧ (let got := ((s1.relsAt pa 8).filter fun r => r.meets .dev s.myTile).foldl (fun k r => Clock.join k r.clk) []
              let w2 := { s.whoMe with clk := Clock.join s.whoMe.clk got }
              ∀ ptr s2 x s3, count = n → n ≠ 0 → s1.readStruct w2 (va + 8) 8 8 = .ok (ptr, s2) →
                s2.readStruct w2 (BitVec.ofNat 64 ptr) 32 32 = .ok (x, s3) →
                let rp : Word := BitVec.ofNat 64 ptr
                let ctl := field64 x 3
                let d := s.die (s.recordDie ctl s.myTile)
                let p := ctlPrio ctl
                let good : Prop := s.recordOk (field64 x 0) (field64 x 1) ctl = true
                let mine : Prop := s.myDom = 0 ∨ ctlDom ctl = s.myDom
                let takes : (State → Prop) → (State → Host.Outcome State Fault Refusal) → Prop := fun e o =>
                  ∃ u : State, u.mem = s.mem.write pa (natBytes 0 8) ∧ u.me.s = s1.me.s ∧ e u
                    ∧ ∀ t, Writes u f.d 0 t → exec (.join f) s = o t
                let pushed : DRec → Prop := fun r => r.code = field64 x 0 ∧ r.frame = field64 x 1 ∧ r.arg = field64 x 2
                  ∧ r.ctl = ctl
                (good → mine → d.hasRoom p = true →
                    takes (fun u => ∃ r, pushed r ∧ (u.die (s.recordDie ctl s.myTile)).queue p = d.queue p ++ [r])
                      fun t => .next (ended t))
                  ∧ (good → mine → d.hasRoom p = false → d.joinHeld.length < 64 →
                    takes (fun u => ∃ r, pushed r ∧ (u.die (s.recordDie ctl s.myTile)).joinHeld = d.joinHeld ++ [r])
                      fun t => .next (ended t))
                  ∧ (good → mine → d.hasRoom p = false → 64 ≤ d.joinHeld.length →
                    takes (fun u => u.dies = s.dies) fun t => .next (ended (t.upd fun y =>
                      { y with wait := BitVec.ofNat 64 (ptr % 2 ^ 55 * 256 + 5), wake := none, joinRec := some rp,
                               joinDie := s.recordDie ctl s.myTile })))
                  ∧ (¬ good → takes (fun u => u.dies = s.dies) fun t =>
                    .next (t.takeTrap s { cause := 0x11, addr := rp } true 0xA01))
                  ∧ (good → ¬ mine → takes (fun u => u.dies = s.dies) fun t =>
                    .next (t.takeTrap s { cause := 4, addr := rp } true 0xA01))))
      ∧ (∀ b s1, Reads s f.b b s1 → b.toNat < 512 → s.me.wire = none → s.cx.now = true →
          let die := b.toNat / 64
          let r := (s1.die die).ranges.getD (b.toNat % 64) Range.reset
          (s1.die die).wireReqs = [] →
          (r.valid = true → r.dom.toNat = s.myDom →
              let rem := r.hi.toNat - r.next.toNat
              let size := Nat.min rem (Nat.max r.min.toNat ((rem + r.p.toNat - 1) / r.p.toNat))
              ∃ u : State, u.mem = s.mem ∧ u.me.s = s1.me.s
                ∧ (u.die die).ranges.getD (b.toNat % 64) Range.reset =
                  (if rem = 0 then r else { r with next := r.next + BitVec.ofNat 64 size })
                ∧ ∀ t v, Writes u f.d (if rem = 0 then r.hi else r.next) t →
                  Writes t f.c (if rem = 0 then 0 else BitVec.ofNat 64 size) v → Completes (.rtake f) s v)
            ∧ ∀ x s2, s1.spanWait va 32 false = false → s1.readStruct s1.whoMe va 32 8 = .ok (x, s2) →
              numAt x 16 2 ≠ 0 → numAt x 20 4 ≠ 0 → numAt x 18 2 = 0 → numAt x 24 8 = 0 →
              (r.valid = true → r.dom.toNat = s.myDom ∨ s.myDom = 0) →
              ∃ t, Completes (.rinit f) s t ∧ (t.die die).ranges.getD (b.toNat % 64) Range.reset =
                { lo := field64 x 0, hi := field64 x 1, next := field64 x 0, p := BitVec.ofNat 16 (numAt x 16 2),
                  min := BitVec.ofNat 32 (numAt x 20 4), dom := BitVec.ofNat 8 s.myDom, valid := true })
      ∧ ∀ t, Writes s f.d (handleOf s.me.gen s.cur) t → Completes (.tself f) s t

/-! Compacts (10, 13) and system instructions (10, 21). -/

/-- 10 R279 to R281, 13 R319, R321, R335, R336: SIGN, STEP and DISSOLVE enter their wait as arrivals, and complete with the
answer or the superstep; a SIGN whose structures fail takes the compact-format fault; CKPT asks for a bisque point; ABORT begins
the abort of its compact. Outside Signing or Compute, with no gang or compact, or once arrived, they take the compact-state fault;
so does CKPT of a compact without shadow areas, and an ABORT reason of 0xF000 or more takes the operand-range fault. -/
def Obligations.CompactInstructions : Prop :=
  ∀ (f : EngF) (s : State), Runs s f.hd →
    let ea := s.effAddr f.a f.imm
    let bad : Instr → Nat → Prop := fun i opc => Traps i s opc { cause := 0x1B }
    let signs : Prop := s.me.signed = none ∧ s.uniAllowed = true
    let arrives : Prop := s.me.arrivedAt = none
    (∀ r a, s.me.signed = some (some (r, a)) →
        let u := s.upd fun x => { x with signed := none }
        (r ≠ 4 → ∀ t, Writes u f.d (BitVec.ofNat 64 r) t → Completes (.sign f) s t)
          ∧ (r = 4 → exec (.sign f) s = .next ((u.keepQ s).takeTrap s { cause := 0x1C, addr := a } false 0xA40)))
      ∧ (∀ g, signs → s.me.gang = some g → s.otherMember g [s.myClus] true = false →
          (∀ c0, s.anyCompactOf g = none → s.newCompact s.freeCompact (s.nextId + 1) g ea = .ok c0 → s.freeCompact ≠ 0 →
            s.relWait = false →
            (s.otherMember g (s.memberClus c0) false = true → bad (.sign f) 0xA40)
              ∧ (s.otherMember g (s.memberClus c0) false = false →
                ∃ u c, exec (.sign f) s = .next (State.setHeld u) ∧ u.me.signed = some none ∧ c ∈ u.compacts
                  ∧ c.gang = g ∧ c.num = s.freeCompact ∧ c.st = .signing ∧ c.issued = [(s.cur, ea)] ∧ c.desc = ea))
          ∧ ∀ c, s.anyCompactOf g = some c → s.compact? c.num = some c →
            (c.st = .signing → s.relWait = false →
                ∃ u d, exec (.sign f) s = .next (State.setHeld u) ∧ u.me.signed = some none ∧ u.compact? c.num = some d
                  ∧ d.issued = c.issued ++ [(s.cur, ea)] ∧ d.st = .signing)
              ∧ (c.st ≠ .signing → s.relWait = false → bad (.sign f) 0xA40))
      ∧ (s.me.signed = none → (s.me.gang = none ∨ s.uniAllowed = false
            ∨ ∃ g, s.me.gang = some g ∧ s.otherMember g [s.myClus] true = true) → bad (.sign f) 0xA40)
      ∧ (∀ n w, s.me.arrivedAt = some n → waitKind s.me.wait = 1 → s.me.wake = some w →
          let u := (s.upd fun x => { x.dropWait with arrivedAt := none }).acquire s.cur (s.cone s.myClus s.stepCone).done
          (∀ t, Writes u f.d (n + 1) t → Completes (.step f) s t) ∧ ∀ t, Writes u f.d 0 t → Completes (.dissolve f) s t)
      ∧ (∀ g c, s.me.gang = some g → s.anyCompactOf g = some c → c.st = .compute → s.compact? c.num = some c →
          (arrives → s.cur ∉ c.stepIssued → s.cur ∉ c.dissolveIssued → s.relWait = false →
            (∃ u d, exec (.step f) s = .next (State.setHeld u) ∧ u.compact? c.num = some d ∧ s.cur ∈ d.stepIssued
                ∧ u.me.arrivedAt = some c.step ∧ waitKind u.me.wait = 1)
              ∧ ∃ u d, exec (.dissolve f) s = .next (State.setHeld u) ∧ u.compact? c.num = some d ∧ s.cur ∈ d.dissolveIssued
                ∧ u.me.arrivedAt = some c.step ∧ waitKind u.me.wait = 1)
          ∧ (arrives → (s.cur ∈ c.stepIssued ∨ s.cur ∈ c.dissolveIssued) → bad (.step f) 0xA41 ∧ bad (.dissolve f) 0xA42)
          ∧ (c.shadowA ≠ 0 → Completes (.ckpt f) s (s.updCompact c.num fun x => { x with ckpt := true }))
          ∧ (c.shadowA = 0 → bad (.ckpt f) 0xA43)
          ∧ ∀ a s1, Reads s f.a a s1 →
            (a.toNat % 65536 < 0xF000 →
                Completes (.abort f) s (s1.abortCompact c.num (a.toNat % 65536) (s1.gtileOf s1.cur) (withFatal 0)))
              ∧ (0xF000 ≤ a.toNat % 65536 → Traps (.abort f) s 0xA44 { cause := 0x0E }))
      ∧ ((s.me.gang = none ∨ ∃ g, s.me.gang = some g ∧
            (s.anyCompactOf g = none ∨ ∃ c, s.anyCompactOf g = some c ∧ c.st ≠ .compute)) →
          (arrives → bad (.step f) 0xA41 ∧ bad (.dissolve f) 0xA42) ∧ bad (.ckpt f) 0xA43
            ∧ (canRead s f.a → bad (.abort f) 0xA44))

/-- 10 R283, 01 R24, 21 R396, R397: SRD gives the value of its register; SWR, where it may, writes its fields; an SWR
of a handler's register outside handler mode, or outside domain 0 of a register of the firing program, takes the privilege
trap. The bits kept, and SRD of IPC and VPC, are as assumptions 53 and 68 read the manual. -/
def Obligations.SystemRegisters : Prop :=
  ∀ (f : SysF) (s : State), Runs s f.hd →
    let n := f.sysn.toNat
    let d := s.regDom
    (sysnExists n = true → (n = 0x17 → s.me.vq = []) →
        ∃ v, s.readSys n = some v ∧ ∀ t, Writes s f.d v t → Completes (.srd f) s t)
      ∧ (∀ p ∈ ([(0, s.cycle), (1, BitVec.ofNat 64 s.me.tile), (2, BitVec.ofNat 64 s.myClus), (3, BitVec.ofNat 64 s.myDie),
              (0x10, s.me.status), (0x11, s.me.ipc), (0x12, s.me.vpc), (0x13, s.me.faultaddr), (0x14, s.me.faultinfo),
              (0x15, BitVec.ofNat 64 s.me.dom), (0x16, handleOf s.me.gen s.cur), (0x17, s.me.fpflags),
              (0x100, (s.dom d).tvbase), (0x101, (s.dom d).ptroot), (0x200, s.me.wfsag), (0x201, s.me.wfbat),
              (0x202, s.me.wfrib), (0x203, s.me.wfkn), (0x300, s.fabthr), (0x302, s.cohctl)] : List (Nat × Word)),
          s.readSys p.1 = some p.2)
      ∧ ∀ v s1, Reads s f.a v s1 → sysnExists n = true → sysnReadOnly n = false →
          (sysPriv n = .handler → s.me.hm = false → Traps (.swr f) s 0xF01 { cause := 4 })
            ∧ (s.myDom ≠ 0 → (sysPriv n = .firing ∨ sysPriv n = .wheelwt) → Traps (.swr f) s 0xF01 { cause := 4 })
            ∧ (n = 0x10 → ∃ t, Completes (.swr f) s t ∧ ∀ i, t.me.status.getLsbD i =
                (if i = 2 ∨ (i = 4 ∧ s.me.hm = true) then v.getLsbD i else s.me.status.getLsbD i))
            ∧ (n = 0x17 → s.me.vq = [] → Completes (.swr f) s (s1.upd fun t => { t with fpflags := v &&& 0x1FF#64 }))
            ∧ (s.me.hm = true →
                (n = 0x11 → Completes (.swr f) s (s1.upd fun t => { t with ipc := v }))
                  ∧ (n = 0x12 → Completes (.swr f) s (s1.upd fun t => { t with vpc := v })))
            ∧ (s.myDom = 0 →
                (n = 0x19 → ∃ t, Completes (.swr f) s t ∧ (t.wheel s.myClus).wt = v &&& 0xF_FFFF_FFFF#64)
                  ∧ (n = 0x100 → ∃ t, Completes (.swr f) s t ∧ (t.dom d).tvbase = v &&& 0x7F_FFFF_FFFF_FE00#64)
                  ∧ (n = 0x101 → ∃ t, Completes (.swr f) s t ∧ (t.dom d).ptroot = v &&& 0xF_FFFF_FFFF_0000#64
                      ∧ (t.dom d).ptSet = true)
                  ∧ (n = 0x102 → Completes (.swr f) s (s1.setTile s.myTile { s.tile s.myTile with
                      domsel := (s.tile s.myTile).domsel.setIfInBounds s.me.ctx (v.toNat % 256) }))
                  ∧ (∀ i, i < 8 → n = 0x108 + i →
                      ∃ t, Completes (.swr f) s t ∧ (t.dom d).hchain = (s.dom d).hchain.setIfInBounds i v)
                  ∧ (∀ i, i < 4 → n = 0x120 + i → ∃ t, Completes (.swr f) s t
                      ∧ (t.dom d).bkpt = (s.dom d).bkpt.setIfInBounds i (v &&& 0x807F_FFFF_FFFF_FFFF#64))
                  ∧ (n = 0x300 → Completes (.swr f) s { s1 with fabthr := v &&& 0xFF_FFFF_FFFF_FFFF#64 })
                  ∧ (n = 0x302 → Completes (.swr f) s { s1 with cohctl := v &&& 1#64 })
                  ∧ (n = 0x328 → Completes (.swr f) s { s1 with uetrto := v &&& 0xFFFF_FFFF#64 })
                  ∧ (n = 0x329 → Completes (.swr f) s { s1 with uetretry := BitVec.ofNat 64 (Nat.max 1 (v.toNat % 16)) }))

/-- 10 R282 to R286; 20 R391; 21 R401, R404, R407, R408, R411: outside domain 0 the firing program's instructions take
the privilege trap, and ERET does outside handler mode; otherwise they complete: ERET restores, TLBI drops the cached
translations it names, PREEMPT, RESUME and HALTG answer with their status, those of a compact once every device has acted (13
R321, R339, R340; assumption 26), SALVAGE moves an orphan's bytes. The status codes of the corner cases are those of
assumptions 56 and 57. -/
def Obligations.PrivilegedInstructions : Prop :=
  ∀ (f : SysF) (s : State), Runs s f.hd →
    (s.myDom ≠ 0 → ∀ p ∈ ([(.tlbiDom f, 0xF03), (.tlbiPage f, 0xF03), (.tlbiRange f, 0xF03), (.tlbiAll f, 0xF03),
          (.preemptTask f, 0xF40), (.preemptGang f, 0xF40), (.preemptCompact f, 0xF40), (.resumeTask f, 0xF41),
          (.resumeGang f, 0xF41), (.resumeCompact f, 0xF41), (.haltg f, 0xF42), (.salvage f, 0xF43)] : List (Instr × Nat)),
        Traps p.1 s p.2 { cause := 4 })
      ∧ (s.me.hm = false → Traps (.eret f) s 0xF02 { cause := 4 })
      ∧ (s.me.hm = true → s.me.vq = [] → s.me.ipc.toNat < 2 ^ 55 →
          ∃ t, Completes (.eret f) s t ∧ t.cx.target = some (s.me.ipc, 3) ∧ t.me.saved = []
            ∧ t.me.status = setBit (setBit s.me.status 0 false) 4 false
            ∧ t.me.vq.map (fun e => (e.pc, e.scal)) =
                (if bit1 s.me.status 4 then s.me.saved.drop 1 else s.me.saved).map (fun e => (e.pc, e.scal)))
      ∧ (s.myDom = 0 →
        (∀ c s1, Reads s f.c c s1 → s1.relWait = false → s1.translating (· == c.toNat) = false →
            Completes (.tlbiDom f) s { s1 with tlb := s1.tlb.filter fun e => !(e.dom == c.toNat) })
          ∧ (∀ a s1 c s2, Reads s f.a a s1 → Reads s1 f.c c s2 → s2.relWait = false → s2.translating (· == c.toNat) = false →
            Completes (.tlbiPage f) s { s2 with tlb := s2.tlb.filter fun e =>
              !(e.dom == c.toNat && decide (e.span.1 ≤ a.toNat) && decide (a.toNat < e.span.1 + e.span.2)) })
          ∧ (∀ a s1 b s2 c s3, Reads s f.a a s1 → Reads s1 f.b b s2 → Reads s2 f.c c s3 → s3.relWait = false →
            s3.translating (· == c.toNat) = false →
            Completes (.tlbiRange f) s { s3 with tlb := s3.tlb.filter fun e =>
              !(e.dom == c.toNat && decide (a.toNat < b.toNat) && decide (e.span.1 < b.toNat)
                && decide (a.toNat < e.span.1 + e.span.2)) })
          ∧ (s.relWait = false → s.translating (fun _ => true) = false →
            Completes (.tlbiAll f) s { s with tlb := [] })
          ∧ (∀ h s1, Reads s f.a h s1 → s.me.sysReq = none →
            let preempts : List Instr := [.preemptTask f, .preemptGang f, .preemptCompact f]
            let resumes : List Instr := [.resumeTask f, .resumeGang f, .resumeCompact f]
            let answer : List Instr → Nat → State → (State → State) → Prop := fun is r u g =>
              ∀ i ∈ is, ∀ t, Writes (u.upd fun x => { x with sysReq := none }) f.d (BitVec.ofNat 64 r) t →
                Completes i s (g t)
            (s.named h = none → answer (preempts ++ resumes) 2 s1 id)
              ∧ ∀ k, s.named h = some k → (s.task k).gang.bind s.anyCompactOf = none →
                ((∀ j ∈ s.fellows k, (s.task j).live = false) → answer preempts 1 s1 id)
                  ∧ ((∃ j ∈ s.fellows k, (s.task j).live = true) → (∀ j ∈ s.fellows k, s.stopWaits j = false) →
                      s.stopping k = false → answer preempts 0 s1 fun t => t.stopAll (s.fellows k))
                  ∧ ((∃ j ∈ s.fellows k, (s.task j).live = true) →
                      ((∃ j ∈ s.fellows k, s.stopWaits j = true) ∨ s.stopping k = true) → ∀ i ∈ preempts,
                      exec i s = .next (((s.upd fun x => { x with sysReq := some h }).keepQ s).setHeld))
                  ∧ ∀ i ∈ resumes,
                    let ts := if i = .resumeTask f ∧ (s.task k).run = .forwarded then [k] else s.fellows k
                    let u := s1.askResume ts
                    ((∀ j ∈ ts, (s.task j).live = true) → answer [i] 1 s1 id)
                      ∧ ((∃ j ∈ ts, (s.task j).live = false) → (∀ j ∈ ts, (u.task j).live = true) → answer [i] 0 u id)
                      ∧ ((∃ j ∈ ts, (s.task j).live = false) → (∃ j ∈ ts, (u.task j).live = false) →
                        exec i s = .next ((((s.askResume ts).upd fun x => { x with sysReq := some h }).keepQ s).setHeld)))
          ∧ (∀ h s1 k c, Reads s f.a h s1 → s.named h = some k → (s.task k).gang.bind s.anyCompactOf = some c →
            let after := fun (u : State) => u.upd fun x => { x with sysReq := none }
            let first := s.me.sysReq ≠ some h
            let asks := fun (u : State) => (((u.upd fun x => { x with sysReq := some h }).keepQ s).setHeld : State)
            (c.st = .stopped → c.moving = false → ∀ t, Writes (after s1) f.d (if s.me.sysReq = some h then 0 else 1) t →
                Completes (.preemptCompact f) s t)
              ∧ (c.st ≠ .stopped → first → c.st ≠ .signing → c.st ≠ .aborting →
                ((s.members c).contains s.cur = true → ∀ t, Writes (after s1) f.d 0 t →
                    Completes (.preemptCompact f) s (t.askStop c.num))
                  ∧ ((s.members c).contains s.cur = false →
                    exec (.preemptCompact f) s = .next (asks (s.askStop c.num))))
              ∧ (c.st ≠ .stopped → s.me.sysReq = some h → exec (.preemptCompact f) s = .next (asks s))
              ∧ (c.st ≠ .stopped → c.moving = false → (∀ j ∈ s.fellows k, (s.task j).live = true) →
                ∀ t, Writes (after s1) f.d (if s.me.sysReq = some h then 0 else 1) t → Completes (.resumeCompact f) s t)
              ∧ (let u := s1.askCompactResume c.num
                c.st = .stopped → first →
                ((∀ j ∈ s.fellows k, (u.task j).live = true) →
                    ∀ t, Writes (after u) f.d 0 t → Completes (.resumeCompact f) s t)
                  ∧ ((∃ j ∈ s.fellows k, (u.task j).live = false) →
                    exec (.resumeCompact f) s = .next (asks (s.askCompactResume c.num)))))
          ∧ (∀ h s1 t, Reads s f.a h s1 →
            (s.me.halting = none → s.named h = none → Writes s1 f.d 2 t → Completes (.haltg f) s t)
              ∧ (∀ k, s.me.halting = none → s.named h = some k → Writes s1 f.d 0 t →
                let u := t.fatal k 0 0xF005
                ((s.task k).gang.bind s.anyCompactOf = none → Completes (.haltg f) s u)
                  ∧ ∀ c, (s.task k).gang.bind s.anyCompactOf = some c →
                    (u.abortingAt c.num = false → Completes (.haltg f) s u)
                      ∧ (u.abortingAt c.num = true → u.ready = true → exec (.haltg f) s = .next (State.setHeld
                          (((s.fatal k 0 0xF005).upd fun x => { x with halting := some (h, c.num) }).keepQ s))))
              ∧ ∀ n, s.me.halting = some (h, n) → s.abortingAt n = false →
                Writes (s1.upd fun x => { x with halting := none }) f.d 0 t → Completes (.haltg f) s t)
          ∧ ∀ a s1 b s2, Reads s f.a a s1 → Reads s1 f.b b s2 →
            ((∀ c, (s.dirEnt (a.toNat / 128)).st ≠ .o c) → ∀ t, Writes s2 f.d 1 t → Completes (.salvage f) s t)
              ∧ ∀ c, (s.dirEnt (a.toNat / 128)).st = .o c → physClass b.toNat = .hbm →
                s.lost.contains (homeDie b.toNat) = false → (s.dirEnt (b.toNat / 128)).st = .i → s.relWait = false →
                s.folding b.toNat = false →
                ∃ u : State, u.mem = s.mem.write (b.toNat / 128 * 128) (s.dirEnt (a.toNat / 128)).orphan
                  ∧ (u.dirEnt (a.toNat / 128)).st = .i ∧ ∀ t, Writes u f.d 0 t → Completes (.salvage f) s t)

/-! Events of the other agents (95_what_each_step_holds; assumption 1). -/

/-- 01 R29; 02 R64; 04 R89, R101; 08 R210; 10 R258; 21 R400, R414, R415: the events of a task's own machinery. A
pending cause of lowest code is taken; a timed wait ends; a posted group result reaches the members that wait for it.
Events are those of assumption 1, a breakpoint that of 28. -/
def Obligations.TaskEvents : Prop :=
  ∀ (s : State) (t : Nat) (x : Task), s.task? t = some x → x.live = true →
    (∀ line, line < 64 → ActsOn (.frameLineFetch t line) s t fun _ y =>
        y = { x with resident := y.resident } ∧ ∀ n, n < 64 →
          y.resident.getLsbD n = (decide (n = line) || x.resident.getLsbD n))
      ∧ (∀ p, x.busy = false → x.nextPend = some p →
          (x.run ≠ .exiting → ∀ q ∈ x.pend, p.code ≤ q.code)
            ∧ (p.code < 0x30 → p.code ≠ cCopy → ∀ pc checked s2,
                let s1 := s.updTask t fun y => { y with pend := y.pend.erase p }
                (s1.dropMcas t).vectorEntry t p.code = .go pc checked s2 →
                ActsOn (.asyncCauseTaken t) s t fun _ y => y.pc = pc ∧ y.ipc = x.pc ∧ y.faultaddr = p.addr
                  ∧ y.faultinfo =
                    ({ cause := p.code, detail := p.detail, w := p.w, pw := p.pw, info := some p.info } : Trap).info' false 0
                  ∧ bit1 y.status 0 = true ∧ y.vq = []
                  ∧ y.saved.map (fun e => (e.pc, e.scal)) = x.vq.map (fun e => (e.pc, e.scal))
                  ∧ y.pend = x.pend.erase p))
      ∧ (∀ l s1 ss next, s.fetchLine t x.pc = .line l s1 → s1.checkBundle t l = .ok ss next → s1.breakAt t ss = true →
          ∃ u, s1.takeCause t { cause := 0x31, info := some 0 } false 0 x.pc = .ok u ∧ Acts (.breakpoint t) s u)
      ∧ (x.stepping = true → x.hm = false → x.vq = [] → x.nextPend = none →
          ∃ u, (s.updTask t fun y => { y with stepping := false }).takeCause t { cause := 0x30, info := some 0 } false 0 x.pc
              = .ok u ∧ Acts (.singleStepTrap t) s u)
      ∧ (let c := clusOf x.tile
        (∀ l s1, s.fetchLine t x.pc = .line l s1 → (s1.clus c).softErr ≠ (s.clus c).softErr →
            Acts (.fetchParityRefetch t) s s1 ∧ (s1.clus c).softErr = (s.clus c).softErr + 1 ∧ lineParityOk l = true
              ∧ s1.mem = s.mem)
          ∧ ∀ tr, s.fetchLine t x.pc = .trap tr → tr.cause = 0x38 →
            ∃ u, s.takeCause t tr false 0 x.pc = .ok u ∧ Acts (.fetchParityRefetch t) s u)
      ∧ (∀ i : Fin 8,
          let g := x.gens[i]
          let a := g.groupAddr (g.pos.toNat + g.fifo.length)
          (g.bound = true → g.dir = false → g.pos.toNat + g.fifo.length < g.total →
            ({ s with cur := t } : State).wheelWait { lo := a.toNat, n := 128, wr := false } = false →
            let who : Who := { dom := x.dom, tile := x.tile, party := x.party, member := s.memberOf x,
                               clk := x.aheadClk (24 + g.vreg.toNat) g.fifo.length }
            ∀ v s1, s.readGroup who a = .ok (v, s1) → ActsOn (.streamGroupRead t i.val) s t fun u y =>
              y.gens[i] = { g with fifo := g.fifo ++ [{ addr := a, data := v, bad := none }] } ∧ u.mem = s.mem)
            ∧ ∀ o l, g.out = o :: l → s.groupFree o = true →
              ActsOn (.streamGroupWrite t i.val) s t fun u y => y.gens[i] = { g with out := l }
                ∧ u.mem = o.data.foldl (fun m p => m.write p.1 p.2) s.mem)
      ∧ (∀ d, x.deadline = some d → d.toNat ≤ s.cycle.toNat → x.wake = none →
          let ends := fun (r : Nat) => ({ x with wake := some r, deadline := none } : Task)
          (waitKind x.wait = 1 → ActsOn (.waitDeadline t) s t fun u y =>
              y = ends 1 ∧ ∀ cid, t ∉ (u.cone (clusOf x.tile) cid).waiters ∧ t ∉ (u.cone (clusOf x.tile) cid).lockers)
            ∧ (waitKind x.wait = 2 → ActsOn (.waitDeadline t) s t fun _ y => y = ends 1)
            ∧ (waitKind x.wait = 3 → ActsOn (.sleeptExpiry t) s t fun _ y => y = ends 0))
      ∧ ∀ clus gang n g, s.ugroup? clus gang n = some g → g.done = true → t ∈ s.gangIn gang clus →
          (s.gangIn gang clus).Nodup → (∀ j ∈ s.gangIn gang clus, ∃ z, s.task? j = some z ∧ z.live = true) →
          ActsOn (.uGroupComplete clus gang n) s t fun u y => u.mem = s.mem
            ∧ (if t ≠ g.exec ∧ x.unum = n ∧ x.waits 4 = true then
                y.wake = some 0 ∧ y.s = (g.regs.foldl (fun z p => z.setS p.1 p.2) x).s else y = x)

/-- 02 R49, R52, R53, R60, R71: the events of dispatch, of gangs and of the wire unit. Frames are those of assumption
5, the die of a pending gang's aging that of assumption 78. -/
def Obligations.DispatchEvents : Prop :=
  ∀ s : State,
    (∀ tile ctx d p r f, s.idleCtx tile ctx = true → s.isPresent (clusOf tile) = true → s.resumingAt tile = none →
        let s1 := s.tellNoFrame tile
        s1.nextGang tile = none → s1.candidates tile = [(d, p, r)] → r.frame = 0 → s1.pickFrame (ctlDom r.ctl) = some f →
        ActsOn (.recordDispatch tile ctx) s f fun u x =>
          (u.die d).queue p = ((s1.die d).queue p).erase r ∧ x.run = .run ∧ x.pc = r.code ∧ x.tile = tile ∧ x.ctx = ctx
            ∧ x.dom = ctlDom r.ctl ∧ x.sreg 1 = r.arg ∧ x.sreg 2 = ctlWithPrio r.ctl p ∧ x.status = 0 ∧ x.fpflags = 0)
      ∧ (∀ die p r, p < 15 →
          let d := s.die die
          let limit := 1024 * Word.bits (d.dqage.toList.getD p 0) 15 0
          limit ≠ 0 → (d.queue p).find? (fun r => decide (limit < (s.cycle - r.since).toNat)) = some r →
          d.hasRoom (p + 1) = true →
          ∃ u, Acts (.queueAging die p) s u ∧ (u.die die).queue p = (d.queue p).erase r
            ∧ (u.die die).queue (p + 1) = d.queue (p + 1) ++ [{ r with since := s.cycle }])
      ∧ (∀ die r l,
          let d := s.die die
          let p := ctlPrio r.ctl
          d.joinHeld = r :: l → d.hasRoom p = true →
          ∃ u, Acts (.joinHeldPush die) s u ∧ (u.die die).joinHeld = l
            ∧ (u.die die).queue p = d.queue p ++ [{ r with since := s.cycle }])
      ∧ (∀ g tile c x, s.resumingAt tile = none → s.gangFirst tile (s.candidates tile).head? = some g →
          s.freeCtx tile = some c → s.gang? g = some x →
          ∃ u, Acts (.gangWake g tile) s u ∧ u.gang? g = some { x with resv := x.resv ++ [(tile, c)] })
      ∧ (∀ g x fs s1, s.gang? g = some x → x.pending = true → x.started = false →
          (∀ t ∈ x.tiles, ∃ r ∈ x.resv, r.1 = t) → s.gangFrames x.dom x.tiles.length [] = some (fs, s1) →
          ∃ u, Acts (.gangStart g) s u
            ∧ u.gang? g = some { x with pending := false, started := true, resv := [], tasks := fs }
            ∧ ∀ i t f, x.tiles[i]? = some t → fs[i]? = some f → ∃ y, u.task? f = some y ∧ y.pc = x.code ∧ y.tile = t
              ∧ y.gang = some g ∧ y.sreg 1 = BitVec.ofNat 64 i ∧ y.sreg 2 = BitVec.ofNat 64 x.tiles.length ∧ y.sreg 3 = x.arg)
      ∧ ∀ die idx q x, (s.die die).wireReqs[idx]? = some q → s.task? q.task = some x → q.init = none →
          let r := (s.die die).ranges.getD (q.range % 64) Range.reset
          let rem := r.hi.toNat - r.next.toNat
          let size := Nat.min rem (Nat.max r.min.toNat ((rem + r.p.toNat - 1) / r.p.toNat))
          ActsOn (.wireRequestServe die idx) s q.task fun u y =>
            (u.die die).wireReqs = (s.die die).wireReqs.eraseIdx idx
              ∧ (r.valid = false ∨ r.dom.toNat ≠ x.dom → y = { x with wire := some .fault })
              ∧ (r.valid = true → r.dom.toNat = x.dom → rem = 0 → y = { x with wire := some (.got r.hi 0) })
              ∧ (r.valid = true → r.dom.toNat = x.dom → rem ≠ 0 →
                  y = { x with wire := some (.got r.next (BitVec.ofNat 64 size)) }
                    ∧ (u.die die).ranges.getD (q.range % 64) Range.reset = { r with next := r.next + BitVec.ofNat 64 size })

/-- 07 R179, R185, R186; 09 R222, R223; 10 R253 to R257, R263, R264, R271, R272; 14 R344: the events of the Wheel, the
damper, the pug engine, the cones, the messages, the I/O reads and the MCAS engine. A Wheel command acts at its start
(assumption 24), asks the damper at the head (46), and shows W as 74 says. -/
def Obligations.EngineEvents : Prop :=
  ∀ s : State,
    (∀ clus q w1 c c' s', (s.wheel clus).runArray = none → (s.wheel clus).runPort = none →
        (s.wheel clus).startAt ≠ some s.cycle → s.wheelPick clus = some (q, w1) → w1.head clus q = some c → clus ∈ c.cluss →
        let w2 : Wheel := if wheelArray c.ins then { w1 with runArray := some q } else { w1 with runPort := some q }
        (s.setWheel clus { w2 with startAt := some s.cycle }).readRows c = .ok (c', s') →
        let last : Prop := ∀ k ∈ c.cluss, k = clus ∨ k ∈ c.begun
        let starts : State → Prop := fun s1 => ∃ u, Acts (.wheelCommandStart clus) s u ∧ u.mem = s1.mem
          ∧ (if wheelArray c.ins then (u.wheel clus).runArray else (u.wheel clus).runPort) = some q
          ∧ ∀ d ∈ (u.wheel clus).queue q, d.id = c.id → clus ∈ d.begun
        (¬ last → starts s')
          ∧ (∀ fl s1, last → wheelEffect s' clus c' = .ok (fl, s1) → starts s1)
          ∧ ∀ cause addr wr pw s1 x, last → wheelEffect s' clus c' = .error (.fault cause addr wr pw, s1) →
            s1.task? c.task = some x →
            ActsOn (.wheelCommandStart clus) s c.task fun u y => q ∈ (u.wheel clus).stopped
              ∧ q ∈ y.fpend ∧ q ∈ y.wstop ∧ y.werr = BitVec.ofNat 64 (cause * 65536 + wheelOpc c.ins)
              ∧ y.pend = x.pend ++ [{ code := cWheel, detail := cause, addr := addr, w := wr, pw := pw,
                                      info := BitVec.ofNat 32 (wheelOpc c.ins), ref := q }])
      ∧ (∀ clus array q c x, (if array then (s.wheel clus).runArray else (s.wheel clus).runPort) = some q →
          (s.wheel clus).head clus q = some c → c.runs clus = true → ((s.wheel clus).queues.map (·.1)).Nodup →
          c.snap = none → c.parts = [clus] → c.clus = clus → (∀ f, c.ins ≠ .mmac f) → s.task? c.task = some x →
          x.live = true →
          ActsOn (.wheelCommandComplete clus array) s c.task fun u y =>
            (if array then (u.wheel clus).runArray else (u.wheel clus).runPort) = none
              ∧ ((u.wheel clus).queue q).map (·.id) = (((s.wheel clus).queue q).map (·.id)).filter (· != c.id)
              ∧ y.wdone = x.wdone + 1 ∧ y.fpflags = orFlags x.fpflags (wheelFlags c.flags))
      ∧ (∀ clus,
          let k := s.clus clus
          let die := dieOfClus clus
          (s.capping = true → Acts (.damperGrant clus) s s)
            ∧ ∀ wheel id t0 l, k.damperQ = (wheel, id, t0) :: l → s.capping = false → s.holders die < (s.die die).lim →
              (∀ g, k.lastGrant = some g → (s.die die).gap ≤ (s.cycle - g).toNat) →
              ∃ u, Acts (.damperGrant clus) s u ∧ (u.clus clus).damperQ = l ∧ (u.clus clus).lastGrant = some s.cycle
                ∧ (u.clus clus).leaves = k.leaves ++ [(wheel, id)]
                ∧ (if wheel then ∀ q, ∀ c ∈ (u.wheel clus).queue q, c.id = id → c.granted = true
                   else ∀ c, u.copy? clus id = some c → c.granted = true))
      ∧ (∀ clus id c src dst pad sf df op rnd nov dims layout dest recv, s.copy? clus id = some c →
          c.op = .copy src dst pad sf df op rnd nov dims layout dest recv →
          let k := s.clus clus
          (c.run = .queued → c.bad = none → k.before c = [] → c.heavy = true → c.granted = false →
              (∀ r ∈ k.damperQ, r.1 = false → r.2.1 ≠ id) →
              ∃ u, Acts (.copyStart clus id) s u ∧ (u.clus clus).damperQ = k.damperQ ++ [(false, id, s.cycle)])
            ∧ (c.run = .queued → c.bad = none → k.before c = [] → (c.heavy = true → c.granted = true) → dest = none →
              let own := Clock.join (pubClock c.party 1) (pubClock c.writer 1)
              let c' := { c with clk := Clock.join (Clock.join c.clk (k.queueClk c.mask)) own }
              ∀ s1 fl es, copyWalk (s.copyWho c' c'.party) (s.copyWho c' c'.writer) src dst pad sf df op rnd nov dims layout false none
                  (copyTotal dims - c.done) c.done s 0 [] = (s1, fl, es, copyTotal dims, none) →
              ∃ u d, Acts (.copyStart clus id) s u ∧ u.copy? clus id = some d ∧ d.run = .running
                ∧ d.done = copyTotal dims ∧ d.flags = c.flags ||| fl ∧ u.mem = s1.mem)
            ∧ (c.run = .running → c.done = copyTotal dims → c.unacked = 0 → c.ended = false →
              ∀ x, s.task? c.task = some x → x.live = true →
              (c.cone = none → ActsOn (.copyComplete clus id) s c.task fun u y => u.copy? clus id = none
                  ∧ y.fpflags = orFlags x.fpflags c.flags ∧ y.copied = x.copied ++ [(c.promise, c.pub)])
                ∧ ∀ cid, c.cone = some cid → s.coneOk clus cid c.dom [0] = true → (s.cone clus cid).a ≠ (s.cone clus cid).e →
                  i32Ok (s.cone clus cid).pb = true →
                  ∃ u, Acts (.copyComplete clus id) s u ∧ u.copy? clus id = none ∧ (s.cone clus cid).arrived 0 (u.cone clus cid)))
      ∧ (∀ clus id c x, s.copy? clus id = some c → c.ended = false → s.task? c.task = some x → c.late = false →
          c.run ≠ .faulted → c.promise.toNat ≤ s.cycle.toNat → c.op ≠ .fence →
          ActsOn (.latePromiseExpiry clus id) s c.task fun u y => (u.copy? clus id).map (·.late) = some true
            ∧ y.pend = x.pend ++ [{ code := cLate, detail := 0, addr := 0, w := false,
                                    info := c.promise.setWidth 32, ref := id }])
      ∧ (∀ clus id c, s.copy? clus id = some c → c.op = .fence → (s.clus clus).before c = [] →
          ∃ u, Acts (.cpyqfFenceComplete clus id) s u ∧ u.copy? clus id = none)
      ∧ (∀ idx p, s.pbdecs[idx]? = some p → s.coneOk p.clus p.cid p.dom [0] = true →
          let c := s.cone p.clus p.cid
          i32Ok (c.pb - p.bytes) = true →
          ∃ u, Acts (.pendingByteDecrement idx) s u ∧ u.pbdecs = s.pbdecs.eraseIdx idx
            ∧ (u.cone p.clus p.cid).pb = c.pb - p.bytes
            ∧ (u.cone p.clus p.cid).phase = (if c.a = c.e ∧ c.pb - p.bytes = 0 then !c.phase else c.phase)
            ∧ (u.cone p.clus p.cid).a = (if c.a = c.e ∧ c.pb - p.bytes = 0 then 0 else c.a))
      ∧ (∀ idx signal r, (s.rarrs.filter fun r => r.signal == signal)[idx]? = some r → r.at'.isSome = true →
          (∀ x ∈ s.rarrs.takeWhile fun x => x.mid != r.mid, x.task = r.task → x.clus = r.clus → x.cid ≠ r.cid) →
          (∀ x ∈ s.rarrs, x.clus = r.clus → x.cid = r.cid → x.at'.isSome = true → r.at'.getD 0 ≤ x.at'.getD 0) →
          let c := s.cone r.clus r.cid
          (signal = false → s.coneOk r.clus r.cid r.dom [0] = true → c.a ≠ c.e → i32Ok c.pb = true →
              ∃ u, Acts (.remoteArrival idx) s u ∧ u.rarrs = s.rarrs.filter (fun x => x.mid != r.mid)
                ∧ c.arrived 0 (u.cone r.clus r.cid))
            ∧ (signal = true → s.coneOk r.clus r.cid r.dom [1] = true →
              ∃ u, Acts (.remoteSignal idx) s u ∧ u.rarrs = s.rarrs.filter (fun x => x.mid != r.mid)
                ∧ (u.cone r.clus r.cid).phase = !c.phase ∧ (u.cone r.clus r.cid).waiters = []))
      ∧ (∀ id m, s.sends.find? (fun m => m.id == id) = some m → m.dev = s.devnum.toNat → m.status = none →
          (∀ x ∈ s.sends.takeWhile fun x => x.id != id, x.task = m.task → x.handle = m.handle → x.dev = m.dev →
            x.status ≠ none) →
          flitsOf m.words.length ≤ m.got.length →
          let answers := fun (u : State) (r : Nat) =>
            (u.sends.find? fun m => m.id == id) = some { m with status := some r }
          (s.reachable m.handle (some m.dom) = false → ∃ u, Acts (.messageDelivery id) s u ∧ answers u 2)
            ∧ ∀ v x, s.reachable m.handle (some m.dom) = true → m.words = [v] → m.reg < 16 →
              s.task? (handleFrame m.handle) = some x → x.live = true → x.mbox.length < 48 →
              ActsOn (.messageDelivery id) s (handleFrame m.handle) fun u y => answers u 0
                ∧ (if x.isFull m.reg = false ∧ x.boxed m.reg = false then
                    y.m.toList.getD m.reg 0 = v ∧ y.isFull m.reg = true ∧ y.mbox = x.mbox
                   else y.m = x.m ∧ y.full = x.full
                    ∧ y.mbox = x.mbox ++ [{ value := v, reg := BitVec.ofNat 4 m.reg, blk := m.blk, clk := m.clk }]))
      ∧ (∀ id m r x n trapm, s.sends.find? (fun m => m.id == id) = some m → m.status = some r → s.task? m.task = some x →
          x.live = true → x.sends.find? (fun e => e.1 == id) = some (id, .s n, trapm) → n ≠ 0 →
          ActsOn (.messageAck id) s m.task fun u y => (∀ e ∈ u.sends, e.id ≠ id) ∧ (∀ e ∈ y.sends, e.1 ≠ id)
            ∧ (if trapm = true ∧ r ≠ 0 then y.s = x.s
                ∧ y.pend = x.pend ++ [{ code := cMessage, detail := r, addr := 0, w := false, info := 0x9C0, ref := id }]
               else y.sreg n = BitVec.ofNat 64 r ∧ y.pend = x.pend))
      ∧ (∀ t x r, s.task? t = some x → x.io = some r → r.result = none →
          (∀ st v, ActsOn (.ioldCompletion t st v) s t fun _ y =>
              y = { x with io := some { r with result := some (Nat.min st 2, v) } })
            ∧ (65536 ≤ (s.cycle - r.t0).toNat → ActsOn (.ioldTimeout t) s t fun _ y =>
              y = { x with io := some { r with result := some (3, 0) } }))
      ∧ ∀ t x r l n, s.task? t = some x → x.mcas = some r → r.seen = none → r.lines[r.held]? = some l →
          r.lines[r.held + 1]? = some n → s.folding (l * 128) = false → s.lost.contains (homeDie (l * 128)) = false →
          (s.dirEnt l).pinnedBy = none → s.lockable t l = true →
          ActsOn (.mcasLockGrant t) s t fun u y => y = { x with mcas := some { r with held := r.held + 1 } }
            ∧ (u.dirEnt l).st = .l t ∧ u.lockWaits = (s.lockWaits.filter fun w => w.2 != .mcas t) ++ [(n, .mcas t)]
            ∧ u.mem = s.mem

/-- 20 R380 to R393, 07 R167, R171: the directory's answer to each request, pinned lines, pushed updates, flits, the
throttle, folding, the loss of a home, the Ultra Ethernet transport and links. Flits are those of assumptions 10 and
49, port accesses those of 60. -/
def Obligations.HomeFabricEvents : Prop :=
  ∀ s : State,
    (∀ clus line,
        let e := s.dirEnt line
        let moves : Instr → DirSt → DirSt → Prop := fun i a b => e.st = a →
          ∃ u, Acts i s u ∧ (u.dirEnt line).st = b ∧ u.mem = s.mem ∧ ∀ l, l ≠ line → u.dirEnt l = s.dirEnt l
        let owns : Instr → Prop := fun i =>
          moves i .i (.m clus) ∧ (∀ d, moves i (.sd d) (.m clus)) ∧ (∀ c, moves i (.e c) (.m clus))
            ∧ (∀ c, moves i (.m c) (.m clus))
            ∧ (∀ cs, e.upd = false → (s.upden = false ∨ cs.length ≠ 2 ∨ clus ∉ cs) → moves i (.s cs) (.m clus))
            ∧ ∀ y, e.upd = false → s.upden = true → y ≠ clus → (e.st = .s [clus, y] ∨ e.st = .s [y, clus]) →
              ∃ u, Acts i s u ∧ u.mem = s.mem ∧ (u.dirEnt line).lastOwner = clus * 512 + y
                ∧ (if e.lastOwner = clus * 512 + y ∧ 2 ≤ e.cnt then
                    (u.dirEnt line).st = e.st ∧ (u.dirEnt line).upd = true ∧ (u.dirEnt line).cnt = 3
                   else (u.dirEnt line).st = .m clus ∧ (u.dirEnt line).upd = false)
        s.homeServes line = true →
        (moves (.dirRead clus line) .i (.e clus)
            ∧ (∀ c, moves (.dirRead clus line) (.e c) (if c = clus then .e c else .s [c, clus]))
            ∧ (∀ c, moves (.dirRead clus line) (.m c) (if c = clus then .m c else .s [c, clus]))
            ∧ (∀ cs, e.upd = false → clus ∉ cs → cs.length < 4 → moves (.dirRead clus line) (.s cs) (.s (cs ++ [clus])))
            ∧ ∀ a b c d, e.upd = false → clus ∉ [a, b, c, d] → moves (.dirRead clus line) (.s [a, b, c, d])
                (.sd (BitVec.ofNat 8
                  (2 ^ dieOfClus a ||| 2 ^ dieOfClus b ||| 2 ^ dieOfClus c ||| 2 ^ dieOfClus d ||| 2 ^ dieOfClus clus))))
          ∧ owns (.dirReadForOwnership clus line) ∧ owns (.dirUpgrade clus line)
          ∧ (∀ a, (a = .i ∨ (∃ cs, a = .s cs) ∨ (∃ d, a = .sd d) ∨ (∃ c, a = .e c) ∨ ∃ c, a = .m c) →
              moves (.dirFarOperation clus line) a .i)
          ∧ moves (.dirWriteback clus line) (.m clus) (.e clus)
          ∧ moves (.dirInvlEvict clus line) (.e clus) .i ∧ moves (.dirInvlEvict clus line) (.m clus) .i
          ∧ (∀ c, c ≠ clus → e.upd = false → moves (.dirInvlEvict clus line) (.s [c, clus]) (.s [c]))
          ∧ Acts (.cleanCopyDrop clus line) s s)
      ∧ (∀ clus c pa n, (s.dirEnt (pa / 128)).st = .p 0 c → c ≠ clus → oneLine pa n = true → n ≤ 8 → s.homeServes (pa / 128) = true →
          Acts (.forwardedPinAccess clus pa n none) s s
            ∧ ∀ v, ∃ u, Acts (.forwardedPinAccess clus pa n (some v)) s u ∧ u.mem = s.mem.write pa (natBytes v.toNat n)
              ∧ u.dir = s.dir)
      ∧ (∀ clus pa n data,
          let e := s.dirEnt (pa / 128)
          e.upd = true → e.lastOwner / 512 = clus → oneLine pa n = true → n ≤ 8 → s.homeServes (pa / 128) = true →
          ∃ u, Acts (.updatePush clus pa n data) s u ∧ u.mem = s.mem.write pa (natBytes data.toNat n)
            ∧ (e.unread = false → u.dirEnt (pa / 128) = { e with unread := true })
            ∧ (e.unread = true → 1 < e.cnt → u.dirEnt (pa / 128) = { e with cnt := e.cnt - 1 })
            ∧ (e.unread = true → e.cnt ≤ 1 → (u.dirEnt (pa / 128)).st = .s [clus] ∧ (u.dirEnt (pa / 128)).upd = false))
      ∧ (∀ f : Flit, s.flits = [f] → s.injq = [] → s.cycled = [] → s.downLinks = [] →
          let aged : Flit := { f with age := Nat.min 255 ((s.fk - f.born) / 32) }
          let cycles : (State → Prop) → Prop := fun p => ∃ u, Acts (.routerCycle f.router) s u ∧ p u
          (f.came = s.fk → f.here = false → cycles fun u => u.flits = [f])
            ∧ (f.came < s.fk → f.here = false → f.router % 32 < 24 → f.dest / 8 % 32 < 24 → f.dest / 8 ≠ f.router →
              f.dest / 8 / 32 = f.router / 32 →
              cycles fun u => ∃ g, u.flits = [g] ∧ g.router / 32 = f.router / 32 ∧ g.router % 32 < 24
                ∧ routerDist (g.router % 32) (f.dest / 8 % 32) + 1 = routerDist (f.router % 32) (f.dest / 8 % 32)
                ∧ g = { aged with router := g.router, came := s.fk, back := false })
            ∧ (f.came < s.fk → f.here = false → f.back = false → f.dest / 8 = f.router →
              cycles fun u => u.flits = [{ aged with here := true }])
            ∧ (f.here = true → f.seq = 0 → f.isLast = true →
              ∃ u, Acts (.flitArrival 0) s u ∧ u.flits = [] ∧ ∀ m ∈ u.sends, m.id = f.ref → f.seq ∈ m.got))
      ∧ (∀ clus,
          let c := s.clus clus
          let t := fun (k : Nat) => Word.bits s.fabthr (8 * k - 1) (8 * k - 8)
          (c.win = s.cycle.toNat / 512 → Acts (.throttleWindow clus) s s) ∧
          (c.win ≠ s.cycle.toNat / 512 → c.winFlits ≠ 0 →
          ∃ u, Acts (.throttleWindow clus) s u ∧ (u.clus clus).win = s.cycle.toNat / 512 ∧ (u.clus clus).winFlits = 0 ∧ (u.clus clus).winDefl = 0
            ∧ (u.clus clus).throttle =
              (if c.throttle < 7 ∧ t (c.throttle + 1) * c.winFlits ≤ 256 * c.winDefl then c.throttle + 1
               else if 0 < c.throttle ∧ 512 * c.winDefl < t c.throttle * c.winFlits then c.throttle - 1
               else c.throttle)))
      ∧ (∀ v,
          (s.foldstat ≠ 0 → Acts (.slfoldWrite v) s s)
            ∧ (s.foldstat = 0 → ∃ u, Acts (.slfoldWrite v) s u ∧ ∀ d, d < 8 →
              let code := Word.bits v (2 * d + 1) (2 * d)
              foldOf u.foldTo d = (if code = 3 then foldOf s.slfold d else code)
                ∧ (u.foldstat.getLsbD d = true ↔ foldOf s.slfold d ≠ foldOf u.foldTo d)))
      ∧ (∀ die, die < 8 → s.foldstat.getLsbD die = true →
          ∃ u, Acts (.foldComplete die) s u ∧ ∀ d, d < 8 →
            foldOf u.slfold d = (if d = die then foldOf s.foldTo d else foldOf s.slfold d)
              ∧ u.foldstat.getLsbD d = (decide (d ≠ die) && s.foldstat.getLsbD d))
      ∧ (∀ die, s.lost.contains die = false → (∀ p ∈ s.tasks, p.2.mcas = none) → s.compactsAtDie die = [] →
          ∃ u, Acts (.homeLossDeclare die) s u ∧ u.lost = s.lost ++ [die] ∧ u.mem = s.mem ∧ ∀ l,
            (homeDie (128 * l) ≠ die → u.dirEnt l = s.dirEnt l)
              ∧ (homeDie (128 * l) = die →
                (∀ c, (s.dirEnt l).st = .m c →
                    if dieOfClus c ∈ s.lost ++ [die] then (u.dirEnt l).st = .i
                    else (u.dirEnt l).st = .o c ∧ (u.dirEnt l).orphan = s.mem.read (128 * l) 128)
                  ∧ (∀ c, (s.dirEnt l).st = .e c → (u.dirEnt l).st = .i)
                  ∧ ∀ cs, (s.dirEnt l).st = .s cs → (u.dirEnt l).st = .i))
      ∧ (∀ p : Packet,
          let seen := s.uetSeen.find? fun a => a.dev == p.dev && a.num == p.num
          (∀ a, seen = some a → Acts (.uetPacketReceive p) s { s with outputs := s.outputs ++ [.uetAck a] })
            ∧ ∀ dom clus cid, seen = none → p.after = none → p.body = .arrival dom clus cid →
              s.isPresent clus = true → s.coneOk clus cid dom [0] = true → (s.cone clus cid).a ≠ (s.cone clus cid).e →
              i32Ok (s.cone clus cid).pb = true →
              ∃ u, Acts (.uetPacketReceive p) s u ∧ (s.cone clus cid).arrived 0 (u.cone clus cid)
                ∧ ∃ a ∈ u.uetSeen, a.dev = p.dev ∧ a.num = p.num ∧ a.answer.status = 0)
      ∧ (∀ num x, s.uetOut.find? (fun u => u.pkt.num == num) = some x →
          (∀ r dom h mr ws blk, x.pkt.body = .message dom h mr ws blk →
              ∃ u, Acts (.uetAckReceive num r) s u ∧ (∀ y ∈ u.uetOut, y.pkt.num ≠ num)
                ∧ ∀ m, s.sends.find? (fun m => m.id == x.ref) = some m → m.status = none →
                  u.sends.find? (fun m => m.id == x.ref) = some { m with status := some r.status })
            ∧ ((s.cycle - x.sentAt).toNat < s.uetrto.toNat % 2 ^ 32 → Acts (.uetRetransmit num) s s)
            ∧ (s.uetrto.toNat % 2 ^ 32 ≤ (s.cycle - x.sentAt).toNat → x.tries < s.uetretry.toNat % 16 →
              ∃ u, Acts (.uetRetransmit num) s u
                ∧ u.uetOut.find? (fun u => u.pkt.num == num) = some
                  { x with tries := x.tries + 1, sentAt := s.cycle, port := s.sprayPort x.pkt.dev (num + x.tries + 1) }))
      ∧ ∀ port up, port < 8 →
          ∃ u, Acts (.ethernetLinkChange port up) s u ∧ ∀ p, p < 8 → ∀ i, i < 64 →
            (vecAt u.uetcfg p).getLsbD i = (if p = port ∧ i = 1 then up else (vecAt s.uetcfg p).getLsbD i)

/-- 13 R321 to R339: the events of a compact of one device. It is signed or refused; its device arrives and enters
Transfer; plan bytes arrive; the boundary begins and commits a due bisque point; the members are released into the
next superstep; it dissolves; an abort ends its members, reloads the agreed bisque point, and tells the firing program. The
agreement of the devices is that of assumption 26, and the address told with a failed SIGN that of 62. -/
def Obligations.CompactEvents : Prop :=
  ∀ (s : State) (n : Nat) (c : Compact), s.compact? n = some c → c.num = n → c.devs = [s.devnum.toNat] →
    let me := s.devnum.toNat
    let becomes : Instr → (State → Compact → Prop) → Prop := fun i p =>
      ∃ u d, Acts i s u ∧ u.compact? n = some d ∧ p u d
    (c.st = .signing → c.status = none → c.moving = false → c.ready = [] → c.reports = [] →
        (∀ t ∈ s.members c, ∃ i ∈ c.issued, i.1 = t) →
        let told := fun (u : State) (r : Nat) => ∀ t ∈ s.members c, ∀ x, s.task? t = some x →
          ∃ y, u.task? t = some y ∧ y.signed = some (some (r, c.badAddr.getD 0))
        let r := s.signVerdict { c with status := some (s.signStatus c), reports := [(me, s.signStatus c)] }
        (r ≠ 0 → ∃ u, Acts (.signingComplete n) s u ∧ (∀ d ∈ u.compacts, d.num ≠ n) ∧ told u r)
          ∧ (r = 0 → s.pinLost c = true → becomes (.signingComplete n) fun _ d => d.st = .aborting ∧ d.reason = 0xF003)
          ∧ (r = 0 → s.pinLost c = false → s.convertible c = true → becomes (.signingComplete n) fun u d => d.st = .compute ∧ d.step = 0 ∧ told u 0
              ∧ ∀ p ∈ s.pinPages c, ∀ l ∈ pageLines p.2.1, ∃ k, (u.dirEnt l).st = .p n k))
      ∧ (c.st = .compute → s.allArrived c = true → c.moving = false → c.ready = [] → c.arrivals = [] →
        let enters := fun (final : Bool) => becomes (.deviceArrivalReport n me) fun u d =>
          d.st = .transfer ∧ d.final = final ∧ u.mem = s.mem
            ∧ (c.early = false → d.sending = c.selected c.step) ∧ (c.early = true → d.sending = c.sending)
        (c.dissolveIssued = [] → enters false) ∧ (c.dissolveIssued ≠ [] → c.stepIssued = [] → enters true))
      ∧ (∀ i e k, c.moving = false → (c.st = .compute ∨ c.st = .transfer) → s.channelHeads c = [(i, e, k)] → e.dev = me →
        e.acc = false →
        becomes (.planWritePerformed n) fun u d =>
          let bs := s.rawRead c.dom e.src.toNat e.len
          d.sending = c.sending.filter (· != i) ∧ u.mem = (s.rawWrite c.dom e.dst.toNat bs).mem
            ∧ (u.cone e.clus 127).pb = (s.cone e.clus 127).pb - bs.length)
      ∧ (c.st = .transfer → s.transferDone c = true → c.ready = [] →
        let due : Bool := c.shadowA != 0 && ((c.period != 0 && (c.step.toNat + 1) % c.period == 0) || c.ckpt)
        (due = false → becomes (.boundaryBegin n) fun u d => d.st = .boundary ∧ d.step = c.step ∧ u.mem = s.mem)
          ∧ (due = true → becomes (.boundaryBegin n) fun u d => d.st = .boundary ∧ d.committed = some (c.step + 1)
            ∧ d.latestB = !c.latestB ∧ d.ckpt = false
            ∧ u.mem = (s.writeShadow c (if c.latestB then c.shadowA else c.shadowB) (c.step + 1)).mem))
      ∧ (c.st = .boundary → c.moving = false → s.parkedAt n = false →
        (c.final = true → becomes (.memberRelease n) fun _ d => d.st = .dissolving)
          ∧ (c.final = false → c.stopPending = false → becomes (.memberRelease n) fun u d =>
            d.st = .compute ∧ d.step = c.step + 1 ∧ d.stepIssued = [] ∧ d.dissolveIssued = []
              ∧ ∀ p ∈ s.reservedCones c, (s.cone p.1 p.2).phase = !(u.cone p.1 p.2).phase))
      ∧ (c.st = .dissolving → c.moving = false → c.stopPending = false → (s.members c).Nodup →
        ∃ u, Acts (.dissolvingComplete n) s u ∧ (∀ d ∈ u.compacts, d.num ≠ n)
          ∧ (∀ p ∈ s.reservedCones c, (u.cone p.1 p.2).init = false)
          ∧ ∀ t ∈ s.members c, ∀ x, s.task? t = some x → x.live = true → x.waits 1 = true →
            ∃ y, u.task? t = some y ∧ y.wake = some 0)
      ∧ (c.st ≠ .aborting → ∀ reason, becomes (.abortToken n reason) fun u d => d.st = .aborting ∧ d.reason = reason
          ∧ ∀ t ∈ s.members c, u.task? t = none)
      ∧ (c.st = .aborting → c.moving = false → (∃ x ∈ c.steps, x.1 = me) → ∃ d, (s.abortMove n).compact? n = some d
          ∧ d.moving = true ∧ d.st = .aborting ∧ d.committed = agreedStep c.steps
          ∧ (s.abortMove n).mem = (match agreedStep c.steps with
              | some a => if c.shadowA = 0 then s.mem else (s.reload c a).mem
              | none => s.mem))
      ∧ (c.st = .aborting → c.moving = true → s.parkedAt n = false →
          (∀ d ∈ (s.abortMove n).compacts, d.num ≠ n) ∧ (s.abortMove n).notices = s.notices ++ [.abortRecord (s.abortRecord c)])

/-- 22 R418 to R427, 23 R428 to R432: the events of the ports, the mailboxes, boot and reset, measurement and
attestation, power and telemetry. What a reset and an access of a port leave beside what the manual says is the choice
of assumptions 58 to 61, the layout of the kiln log's file that of 65, and the frame of the boot task that of 17 and 5. -/
def Obligations.HostEvents : Prop :=
  ∀ s : State,
    let sends : Instr → Output → Prop := fun i o => ∃ u, Acts i s u ∧ u.outputs = s.outputs ++ [o] ∧ u.mem = s.mem
    (∀ w,
        let limit := match s.part with
          | .ev4096lm => 3600
          | .ev4096pk => s.pklimit
          | .ev3584lm => 3200
        ∃ u, Acts (.cappingWindow w) s u ∧ u.capping =
          (if s.capping = false ∧ limit < w then true
           else if s.capping = true ∧ 100 * w < 97 * limit then false else s.capping))
      ∧ (∀ r, ∃ u, Acts (.telemetryRefresh r) s u ∧ (u.sensors.get? 2 = some (if s.capping then 1 else 0))
          ∧ ∀ d, d < 8 → u.sensors.get? (64 + d) = some (s.die d).corrSram
            ∧ u.sensors.get? (72 + d) = some (s.die d).corrHbm ∧ u.sensors.get? (80 + d) = some (s.die d).poisoned)
      ∧ (∀ n, (n = 1 ∨ n = 2 ∨ (16 ≤ n ∧ n < 24) ∨ (32 ≤ n ∧ n ≤ 48) ∨ (64 ≤ n ∧ n < 88)) →
          sends (.pldmGetSensorReading n) (.pldm ((s.sensors.get? n).getD 0)))
      ∧ (∀ d, d < 8 → ∃ l, sends (.pldmKilnlogRead d) (.pldmFile l) ∧ l.length = 4097
          ∧ ∀ i, i < 4096 → l[i]? = some (((s.die d).klog.get? i).getD (List.replicate 32 0)))
      ∧ (∀ w, (s.part = .ev4096pk → 1000 ≤ w → w ≤ 3600 → Acts (.pklimitWrite w) s { s with pklimit := w })
          ∧ (s.part ≠ .ev4096pk ∨ w < 1000 ∨ 3600 < w → sends (.pklimitWrite w) .pldmError))
      ∧ (∀ peer off n, off + n ≤ 2 ^ 40 → s.parked = [] → s.barWrites = [] →
          (∀ p ∈ barPieces off n, s.barState (.host peer off n) peer false p.1 = .go) → sends (.bar2Read peer off n) (.barData peer (s.mem.read off n) false))
      ∧ (∀ peer off b bs, off % 8 + bs.length < 8 → off + (b :: bs).length ≤ 2 ^ 40 → s.lost = [] → s.foldstat = 0 → s.lockWaits = [] →
          s.barWrites = [] → (s.dirEnt (off / 128)).st = .i →
          ∃ u, Acts (.bar2Write peer off (b :: bs)) s u ∧ u.mem = s.mem.write off (b :: bs) ∧ u.delDrop = s.delDrop)
      ∧ (∀ mb, mb < 64 →
          let x := s.mbox mb
          let next := fun (v : BitVec 32) => if v.toNat = 2 ^ 32 - 1 then (1 : BitVec 32) else v + 1
          let good := fun (old cons new : BitVec 32) => new = next old ∧
            (if cons.toNat ≤ new.toNat then new.toNat - cons.toNat else new.toNat + (2 ^ 32 - 1) - cons.toNat) ≤ 16
          (∀ v, x.port = false → s.barWrites = [] → ∃ u, Acts (.hseqWrite false mb v) s u
              ∧ (good x.hseq x.hcons v → (u.mbox mb).hseq = v ∧ (u.mbox mb).err = x.err)
              ∧ (¬ good x.hseq x.hcons v → (u.mbox mb).hseq = x.hseq ∧ (u.mbox mb).err = true))
            ∧ (∀ v, x.port = true → Acts (.hseqWrite false mb v) s s ∧ Acts (.dconsWrite false mb v) s s)
            ∧ (∀ v, s.barWrites = [] → ∃ u, Acts (.dconsWrite x.port mb v) s u ∧ u.mbox mb = { x with dcons := v })
            ∧ (∀ v, ∃ u, Acts (.hconsWrite mb v) s u ∧ u.mbox mb = { x with hcons := v })
            ∧ (∀ v, ∃ u, Acts (.dseqWrite mb v) s u
              ∧ (good x.dseq x.dcons v → (u.mbox mb).dseq = v
                ∧ (if (s.msixOf x.port mb).masked then (u.msixOf x.port mb).pending = true ∧ u.outputs = s.outputs
                   else u.outputs = s.outputs ++ [.msix x.port mb (s.msixOf x.port mb).addr (s.msixOf x.port mb).data]))
              ∧ (¬ good x.dseq x.dcons v → (u.mbox mb).dseq = x.dseq ∧ (u.mbox mb).err = true))
            ∧ (∀ peer, ∃ u, Acts (.mbportWrite mb peer) s u ∧ u.mbox mb = { x with port := peer })
            ∧ (∀ off bs, off + bs.length ≤ 2048 → bs ≠ [] → s.barWrites = [] →
              ∃ u, Acts (.bar0MailboxWrite x.port mb off bs) s u ∧ u.mbox mb = { x with data := x.data.write off bs })
            ∧ ∀ off bs, Acts (.bar0MailboxWrite (!x.port) mb off bs) s s)
      ∧ (∀ peer vec, vec < 64 → ∃ u, Acts (.msixUnmask peer vec) s u
          ∧ (u.msixOf peer vec).masked = false ∧ (u.msixOf peer vec).pending = false
          ∧ u.outputs = s.outputs ++
            if (s.msixOf peer vec).pending then [.msix peer vec (s.msixOf peer vec).addr (s.msixOf peer vec).data] else [])
      ∧ ((s.bootstat = 0 ∨ 16 ≤ s.bootstat.toNat) → Acts .bootgo s { s with bootstat := 1 })
      ∧ (s.bootstat ≠ 0 → s.bootstat.toNat < 16 → Acts .bootgo s s)
      ∧ (s.bootstat = 1 → (s.bootCode ≠ 2 → Acts .bootVerifyDone s { s with bootstat := BitVec.ofNat 8 s.bootCode })
          ∧ (s.bootCode = 2 → ∀ f, s.pickFrame 0 = some f → ActsOn .bootVerifyDone s f fun u y =>
            u.bootstat = 2 ∧ u.measured = 2 ∧ y.dom = 0 ∧ y.tile = 0 ∧ y.run = .run
              ∧ y.pc = s.bootaddr + 256 + BitVec.ofNat 64 s.header.entry))
      ∧ (∃ u, Acts .coldReset s u ∧ u = { State.reset with
          part := s.part, present := s.present, rollback := s.rollback, sensors := s.sensors, outputs := s.outputs,
          notices := s.notices, agenda := s.agenda, downLinks := s.downLinks, fresh := s.fresh, cx := s.cx, ckRank := s.ckRank, nextId := s.nextId })
      ∧ (∃ u, Acts .warmReset s u ∧ u.tasks = [] ∧ u.mem = [] ∧ u.bootstat = 0 ∧ u.pklimit = s.pklimit
          ∧ (∀ c, (u.clus c).throttle = 0)
          ∧ ∀ mb, (u.mbox mb).hseq = (s.mbox mb).hseq ∧ (u.mbox mb).hcons = (s.mbox mb).hcons
            ∧ (u.mbox mb).dseq = (s.mbox mb).dseq ∧ (u.mbox mb).dcons = (s.mbox mb).dcons
            ∧ (u.mbox mb).port = (s.mbox mb).port)
      ∧ (∀ peer, ∃ u, Acts (.pcieHotReset peer) s u ∧ u.mboxes = s.mboxes ∧ ∀ vec, u.msixOf peer vec = Msix.reset)
      ∧ (∀ type digest, digest.length = 64 →
          ((256 ≤ s.measured ∨ s.bootstat ≠ 2) → Acts (.measurementAppend type digest) s s)
            ∧ (s.measured < 256 → s.bootstat = 2 → Acts (.measurementAppend type digest) s { s with
              measured := s.measured + 1, measure := shake256 (s.measure ++ wordBytes type ++ digest) 64 }))
      ∧ ∀ nonce, nonce.length = 64 → s.measure.length = 64 →
          (s.bootstat ≠ 2 → Acts (.attestationReport nonce) s s)
            ∧ (s.bootstat = 2 → ∃ l, sends (.attestationReport nonce) (.report l) ∧ l.take 64 = nonce
              ∧ (l.drop 64).take 64 = s.measure ∧ (l.drop 128).take 8 = natBytes s.measured 8)

/-- 00 R7; 01 R24 to R26; 02 R434; 05 R122; 09 R223 to R225; 14 R343, R346, R350; 20 R385, R393; 21 R396, R397, R413:
the writes of registers made as events store the writable fields. Which bits an address register keeps is the choice
of assumption 53; SCOPE, WQSTAT and WHEELWT are read as in assumptions 54, 66 and 91; which commands a write of WQSTAT.DISCARD gives
up is the choice of 80, and that UETMAP's table is read as by domain 0 that of 55. -/
def Obligations.RegisterWriteEvents : Prop :=
  ∀ (s : State) (v : Word),
    let put : PlainReg → (State → Prop) → Prop := fun r p => ∃ u, Acts (.registerWrite r v) s u ∧ p u
    (∃ u, Acts (.devcfgWrite v) s u ∧ u.devset = true ∧ u.devnum = v.setWidth 10)
      ∧ (∀ die p, p < 16 →
          let old := (s.die die).dqring.toList.getD p 0
          ∃ u, Acts (.dqringWrite die p v) s u ∧ ∀ i, i < 64 →
            ((u.die die).dqring.toList.getD p 0).getLsbD i =
              (if i = 63 then v.getLsbD 63
               else if (s.die die).queue p ≠ [] then old.getLsbD i
               else (decide (i < 4) || (decide (12 ≤ i) && decide (i < 52))) && v.getLsbD i))
      ∧ (∀ n u, n < 16 → s.scopeSet s.regDom n v = .ok (some u) → Acts (.scopeWrite n v) s u
          ∧ (u.dom s.regDom).scope.toList.getD n 0 = v)
      ∧ (s.me.vq = [] → Acts (.fpflagsWrite v) s (s.upd fun t => { t with fpflags := v &&& 0x1FF#64 }))
      ∧ (∃ u, Acts (.wheelwtWrite v) s u ∧ (u.wheel s.myClus).wt = v &&& 0xF_FFFF_FFFF#64)
      ∧ (∀ x, s.task? s.cur = some x → s.wheelBusy s.cur = false → v.toNat < 2 ^ 24 →
          footprintBytes x.wfsag x.wfbat x.wfrib v ≤ Word.bits x.saveext 11 0 * 4096 → fpCoop x.wfsag = false →
          fpFirst x.wfsag + fpCount x.wfsag ≤ 1024 → fpFirst x.wfrib + fpCount x.wfrib ≤ 1024 →
          ActsOn (.wheelFootprintWrite 3 v) s s.cur fun u y => y = { x with wfkn := v } ∧ ∀ i, i < 24 → v.getLsbD i = true →
            (u.wheel s.myClus).knDom.getD i x.dom = x.dom)
      ∧ (∀ x, s.task? s.cur = some x → ((s.wheel s.myClus).queues.map (·.1)).Nodup →
          (∀ q, ∀ c ∈ (s.wheel s.myClus).queue q, s.myClus ∈ c.cluss) →
          let taken := x.fpend.filter x.takenStops.contains
          let qs := if taken = [] then x.fpend else taken
          ActsOn .wqstatDiscard s s.cur fun u y => y.fpend = x.fpend.filter (fun q => !qs.contains q) ∧ y.wstop = x.wstop
            ∧ ∀ q ∈ qs, ∀ c ∈ (u.wheel s.myClus).queue q, c.task ≠ s.cur)
      ∧ Acts .cfstatAbandon s (s.upd fun t => { t with cfstat := setBit t.cfstat 31 true })
      ∧ (∀ x, s.task? s.cur = some x → ActsOn (.statusWrite v) s s.cur fun _ y => ∀ i, i < 64 →
          y.status.getLsbD i = (if i = 2 ∨ (i = 4 ∧ x.hm = true) then v.getLsbD i else x.status.getLsbD i))
      ∧ (∀ m, s.tableImage (v &&& 0x7F_FFFF_FFFF_FF80#64).toNat 131072 = .ok m →
          Acts (.uetmapWrite v) s { s with uetmap := v &&& 0x7F_FFFF_FFFF_FF80#64, uetTable := m })
      ∧ (∀ d, put (.tvbase d) fun u => (u.dom d).tvbase = v &&& 0x7F_FFFF_FFFF_FE00#64)
      ∧ (∀ d, put (.ptroot d) fun u => (u.dom d).ptroot = v &&& 0xF_FFFF_FFFF_0000#64 ∧ (u.dom d).ptSet = true)
      ∧ (∀ d i, put (.hchain d i) fun u => (u.dom d).hchain = (s.dom d).hchain.setIfInBounds i v)
      ∧ (∀ d i, put (.bkpt d i) fun u =>
          (u.dom d).bkpt = (s.dom d).bkpt.setIfInBounds i (v &&& 0x807F_FFFF_FFFF_FFFF#64))
      ∧ (put .domsel fun u => u = s.setTile s.myTile { s.tile s.myTile with
          domsel := (s.tile s.myTile).domsel.setIfInBounds s.me.ctx (v.toNat % 256) })
      ∧ (put .ipc fun u => u = s.upd fun t => { t with ipc := v })
      ∧ (put .vpc fun u => u = s.upd fun t => { t with vpc := v })
      ∧ (put .btctl fun u => ∀ i, i < 64 → (i = 0 ∨ (12 ≤ i ∧ i < 52)) →
          (u.tile s.myTile).btctl.getLsbD i = v.getLsbD i)
      ∧ (put .btctl fun u => Word.bits (u.tile s.myTile).btctl 4 1 = Nat.min 12 (Word.bits v 4 1))
      ∧ (put .fabthr fun u => u = { s with fabthr := v &&& 0xFF_FFFF_FFFF_FFFF#64 })
      ∧ (put .cohctl fun u => u = { s with cohctl := v &&& 1#64 })
      ∧ (∀ p, p < 8 → put (.uetcfg p) fun u => ∀ i, i < 64 →
          (vecAt u.uetcfg p).getLsbD i =
            (if i = 0 then v.getLsbD 0 else if i = 1 then (vecAt s.uetcfg p).getLsbD 1 else false))
      ∧ (put .uetrto fun u => u = { s with uetrto := v &&& 0xFFFF_FFFF#64 })
      ∧ (put .uetretry fun u => u = { s with uetretry := BitVec.ofNat 64 (Nat.max 1 (v.toNat % 16)) })
      ∧ (∀ d p, put (.dqage d p) fun u => (u.die d).dqage = (s.die d).dqage.setIfInBounds p (v &&& 0xFFFF#64))
      ∧ (∀ d, put (.dampctl d) fun u => (u.die d).dampctl.toNat % 2 ^ 12 = v.toNat % 2 ^ 12
        ∧ (u.die d).dampctl.toNat / 2 ^ 16 = Nat.max 1 (Nat.min 64 (v.toNat / 2 ^ 16 % 2 ^ 7)))
      ∧ (∀ d, put (.xdelay d) fun u => (u.die d).xdelay = v &&& 0xFFFF_FFFF#64)
      ∧ (put .bootaddr fun u => u = { s with bootaddr := v &&& 0xF_FFFF_FFFF_FF00#64 })
      ∧ ∀ n, put (.mbtask n) fun u => u.mbox n = { s.mbox n with task := v }
end

