-- ==== Sys2Proof/Laws/Encoding.lean ====
section
/-! SUPPORT. The encoder's words: each field of a packed word is where the decoder takes it from (04 R96, R97, R99). -/

namespace Sys2Proof

/-! Registers (01 R17). -/

@[simp] theorem Reg.code_ofCode (c : BitVec 7) : (Reg.ofCode c).code = c := by revert c; decide

@[simp] theorem Reg.ofCode_code (r : Reg) : Reg.ofCode r.code = r := by cases r <;> rename_i n <;> revert n <;> decide

/-! Fields of words. -/

/-- A field of a field. -/
theorem extract_part {w : Nat} (x : BitVec w) (s n t k : Nat) (h : t + k ≤ n) :
    x.extractLsb' (s + t) k = (x.extractLsb' s n).extractLsb' t k := by
  apply BitVec.eq_of_getLsbD_eq
  intro i hi
  simp only [BitVec.getLsbD_extractLsb', hi, show t + i < n by omega, decide_true, Bool.true_and, Nat.add_assoc]

theorem bitOf_extract (x : IWord) (i : Nat) : bitOf x i = (x.extractLsb' i 1).getLsbD 0 := by simp [bitOf]

@[simp] theorem b1_bit (b : Bool) : (b1 b).getLsbD 0 = b := by cases b <;> rfl

@[simp] theorem b1_elem (b : Bool) : (b1 b)[0] = b := by cases b <;> rfl

theorem packHead_parts (opc : Nat) (hd : Hd) :
    (packHead opc hd).extractLsb' 5 12 = BitVec.ofNat 12 opc ∧ (packHead opc hd).extractLsb' 4 1 = b1 hd.u
      ∧ (packHead opc hd).extractLsb' 1 3 = hd.pm ∧ (packHead opc hd).extractLsb' 0 1 = b1 hd.pn := by
  simp only [packHead]
  refine ⟨?_, ?_, ?_, ?_⟩ <;>
  · simp (disch := decide) only [BitVec.extractLsb'_append_eq_of_le, BitVec.extractLsb'_append_eq_of_add_le, Nat.reduceSub]
    simp

/-- A word that begins with a head has its opcode and its prefix. -/
theorem head_of_extract {w : IWord} {opc : Nat} {hd : Hd} (h : w.extractLsb' 79 17 = packHead opc hd) :
    opcOf w = BitVec.ofNat 12 opc ∧ hdOf w = hd := by
  constructor
  · rw [opcOf, extract_part _ 79 17 5 12 (by decide), h, (packHead_parts ..).1]
  · simp only [hdOf, bitOf_extract]
    rw [extract_part _ 79 17 4 1 (by decide), extract_part _ 79 17 1 3 (by decide), extract_part _ 79 17 0 1 (by decide), h,
      (packHead_parts ..).2.1, (packHead_parts ..).2.2.1, (packHead_parts ..).2.2.2]
    simp

theorem packF3_parts (opc : Nat) (hd : Hd) (d a b c : Reg) (m : BitVec 19) (imm : BitVec 32) :
    let w := packF3 opc hd d a b c m imm
    w.extractLsb' 79 17 = packHead opc hd ∧ w.extractLsb' 72 7 = d.code ∧ w.extractLsb' 65 7 = a.code
      ∧ w.extractLsb' 58 7 = b.code ∧ w.extractLsb' 51 7 = c.code ∧ w.extractLsb' 0 32 = imm
      ∧ w.extractLsb' 32 19 = m := by
  simp only [packF3]
  refine ⟨?_, ?_, ?_, ?_, ?_, ?_, ?_⟩ <;>
  · simp (disch := decide) only [BitVec.extractLsb'_append_eq_of_le, BitVec.extractLsb'_append_eq_of_add_le, Nat.reduceSub]
    simp

/-- The common fields of an F3 word. -/
theorem packF3_common (opc : Nat) (hd : Hd) (d a b c : Reg) (m : BitVec 19) (imm : BitVec 32) :
    let w := packF3 opc hd d a b c m imm
    opcOf w = BitVec.ofNat 12 opc ∧ hdOf w = hd ∧ regAt w 72 = d ∧ regAt w 65 = a ∧ regAt w 58 = b ∧ regAt w 51 = c
      ∧ w.extractLsb' 0 32 = imm ∧ w.extractLsb' 32 19 = m := by
  obtain ⟨h1, h2, h3, h4, h5, h6, h7⟩ := packF3_parts opc hd d a b c m imm
  exact ⟨(head_of_extract h1).1, (head_of_extract h1).2, by rw [regAt, h2]; simp, by rw [regAt, h3]; simp,
    by rw [regAt, h4]; simp, by rw [regAt, h5]; simp, h6, h7⟩

/-! Each format: its opcode, and unpacking what was packed. -/


@[simp] theorem ScF.opc_pack (opc : Nat) (f : ScF) : opcOf (f.pack opc) = BitVec.ofNat 12 opc := (packF3_common ..).1

@[simp] theorem ScF.unpack_pack (opc : Nat) (f : ScF) : ScF.unpack (f.pack opc) = f := by
  obtain ⟨-, h1, h2, h3, h4, h5, h6, h7⟩ := packF3_common opc f.hd f.d f.a f.b f.c _ f.imm
  simp only [ScF.unpack, ScF.pack, bitOf_extract]
  rw [h1, h2, h3, h4, h5, h6,
    extract_part _ 32 19 18 1 (by decide),
    extract_part _ 32 19 15 3 (by decide),
    extract_part _ 32 19 11 4 (by decide),
    extract_part _ 32 19 10 1 (by decide),
    extract_part _ 32 19 0 10 (by decide)]
  simp (disch := decide) only [h7, BitVec.extractLsb'_append_eq_of_le, BitVec.extractLsb'_append_eq_of_add_le, Nat.reduceSub]
  simp

@[simp] theorem MemF.opc_pack (opc : Nat) (f : MemF) : opcOf (f.pack opc) = BitVec.ofNat 12 opc := (packF3_common ..).1

@[simp] theorem MemF.unpack_pack (opc : Nat) (f : MemF) : MemF.unpack (f.pack opc) = f := by
  obtain ⟨-, h1, h2, h3, h4, h5, h6, h7⟩ := packF3_common opc f.hd f.d f.a f.b f.c _ f.imm
  simp only [MemF.unpack, MemF.pack, bitOf_extract]
  rw [h1, h2, h3, h4, h5, h6,
    extract_part _ 32 19 16 3 (by decide),
    extract_part _ 32 19 15 1 (by decide),
    extract_part _ 32 19 12 3 (by decide),
    extract_part _ 32 19 9 3 (by decide),
    extract_part _ 32 19 5 4 (by decide),
    extract_part _ 32 19 4 1 (by decide),
    extract_part _ 32 19 0 4 (by decide)]
  simp (disch := decide) only [h7, BitVec.extractLsb'_append_eq_of_le, BitVec.extractLsb'_append_eq_of_add_le, Nat.reduceSub]
  simp

@[simp] theorem VecF.opc_pack (opc : Nat) (f : VecF) : opcOf (f.pack opc) = BitVec.ofNat 12 opc := (packF3_common ..).1

@[simp] theorem VecF.unpack_pack (opc : Nat) (f : VecF) : VecF.unpack (f.pack opc) = f := by
  obtain ⟨-, h1, h2, h3, h4, h5, h6, h7⟩ := packF3_common opc f.hd f.d f.a f.b f.c _ f.imm
  simp only [VecF.unpack, VecF.pack, bitOf_extract]
  rw [h1, h2, h3, h4, h5, h6,
    extract_part _ 32 19 14 5 (by decide),
    extract_part _ 32 19 9 5 (by decide),
    extract_part _ 32 19 6 3 (by decide),
    extract_part _ 32 19 5 1 (by decide),
    extract_part _ 32 19 4 1 (by decide),
    extract_part _ 32 19 3 1 (by decide),
    extract_part _ 32 19 0 3 (by decide)]
  simp (disch := decide) only [h7, BitVec.extractLsb'_append_eq_of_le, BitVec.extractLsb'_append_eq_of_add_le, Nat.reduceSub]
  simp

@[simp] theorem WhF.opc_pack (opc : Nat) (f : WhF) : opcOf (f.pack opc) = BitVec.ofNat 12 opc := (packF3_common ..).1

@[simp] theorem WhF.unpack_pack (opc : Nat) (f : WhF) : WhF.unpack (f.pack opc) = f := by
  obtain ⟨-, h1, h2, h3, h4, h5, h6, h7⟩ := packF3_common opc f.hd f.d f.a f.b f.c _ f.imm
  simp only [WhF.unpack, WhF.pack, bitOf_extract]
  rw [h1, h2, h3, h4, h5, h6,
    extract_part _ 32 19 14 5 (by decide),
    extract_part _ 32 19 9 5 (by decide),
    extract_part _ 32 19 8 1 (by decide),
    extract_part _ 32 19 7 1 (by decide),
    extract_part _ 32 19 0 7 (by decide)]
  simp (disch := decide) only [h7, BitVec.extractLsb'_append_eq_of_le, BitVec.extractLsb'_append_eq_of_add_le, Nat.reduceSub]
  simp

@[simp] theorem EngF.opc_pack (opc : Nat) (f : EngF) : opcOf (f.pack opc) = BitVec.ofNat 12 opc := (packF3_common ..).1

@[simp] theorem EngF.unpack_pack (opc : Nat) (f : EngF) : EngF.unpack (f.pack opc) = f := by
  obtain ⟨-, h1, h2, h3, h4, h5, h6, h7⟩ := packF3_common opc f.hd f.d f.a f.b f.c _ f.imm
  simp only [EngF.unpack, EngF.pack, bitOf_extract]
  rw [h1, h2, h3, h4, h5, h6,
    extract_part _ 32 19 16 3 (by decide),
    extract_part _ 32 19 15 1 (by decide),
    extract_part _ 32 19 14 1 (by decide),
    extract_part _ 32 19 13 1 (by decide),
    extract_part _ 32 19 6 7 (by decide),
    extract_part _ 32 19 0 6 (by decide)]
  simp (disch := decide) only [h7, BitVec.extractLsb'_append_eq_of_le, BitVec.extractLsb'_append_eq_of_add_le, Nat.reduceSub]
  simp

@[simp] theorem SysF.opc_pack (opc : Nat) (f : SysF) : opcOf (f.pack opc) = BitVec.ofNat 12 opc := (packF3_common ..).1

@[simp] theorem SysF.unpack_pack (opc : Nat) (f : SysF) : SysF.unpack (f.pack opc) = f := by
  obtain ⟨-, h1, h2, h3, h4, h5, h6, h7⟩ := packF3_common opc f.hd f.d f.a f.b f.c _ f.imm
  simp only [SysF.unpack, SysF.pack]
  rw [h1, h2, h3, h4, h5, h6,
    extract_part _ 32 19 12 7 (by decide),
    extract_part _ 32 19 0 12 (by decide)]
  simp (disch := decide) only [h7, BitVec.extractLsb'_append_eq_of_le, BitVec.extractLsb'_append_eq_of_add_le, Nat.reduceSub]
  simp

theorem FlF.pack_parts (opc : Nat) (f : FlF) :
    (f.pack opc).extractLsb' 79 17 = packHead opc f.hd ∧ (f.pack opc).extractLsb' 72 7 = f.d.code
      ∧ (f.pack opc).extractLsb' 64 8 = f.modl ∧ (f.pack opc).extractLsb' 0 64 = f.imm := by
  simp only [FlF.pack]
  refine ⟨?_, ?_, ?_, ?_⟩ <;>
  · simp (disch := decide) only [BitVec.extractLsb'_append_eq_of_le, BitVec.extractLsb'_append_eq_of_add_le, Nat.reduceSub]
    simp

@[simp] theorem FlF.opc_pack (opc : Nat) (f : FlF) : opcOf (f.pack opc) = BitVec.ofNat 12 opc :=
  (head_of_extract (FlF.pack_parts opc f).1).1

@[simp] theorem FlF.unpack_pack (opc : Nat) (f : FlF) : FlF.unpack (f.pack opc) = f := by
  obtain ⟨h1, h2, h3, h4⟩ := FlF.pack_parts opc f
  simp only [FlF.unpack, regAt, h2, h3, h4, (head_of_extract h1).2, Reg.ofCode_code]

theorem FbF.pack_parts (opc : Nat) (f : FbF) :
    (f.pack opc).extractLsb' 79 17 = packHead opc f.hd ∧ (f.pack opc).extractLsb' 72 7 = f.a.code
      ∧ (f.pack opc).extractLsb' 65 7 = f.b.code ∧ (f.pack opc).extractLsb' 64 1 = b1 f.link
      ∧ (f.pack opc).extractLsb' 3 61 = f.off ∧ (f.pack opc).extractLsb' 0 3 = f.slot := by
  simp only [FbF.pack]
  refine ⟨?_, ?_, ?_, ?_, ?_, ?_⟩ <;>
  · simp (disch := decide) only [BitVec.extractLsb'_append_eq_of_le, BitVec.extractLsb'_append_eq_of_add_le, Nat.reduceSub]
    simp

@[simp] theorem FbF.opc_pack (opc : Nat) (f : FbF) : opcOf (f.pack opc) = BitVec.ofNat 12 opc :=
  (head_of_extract (FbF.pack_parts opc f).1).1

@[simp] theorem FbF.unpack_pack (opc : Nat) (f : FbF) : FbF.unpack (f.pack opc) = f := by
  obtain ⟨h1, h2, h3, h4, h5, h6⟩ := FbF.pack_parts opc f
  simp only [FbF.unpack, regAt, bitOf_extract, h2, h3, h4, h5, h6, (head_of_extract h1).2, Reg.ofCode_code, b1_bit]

end Sys2Proof
end

