-- ==== Sys2Proof/Laws/Memory.lean ====
section
/-! SUPPORT. The memory laws: a write keeps the canonical form, gives its bytes back, and changes no other byte; sparse
maps give back what was put in. -/

namespace Sys2Proof.Machine

open Sys2Proof

/-! Sparse maps. -/

theorem Map.get?_set {α : Type} (m : Map α) (x y : Nat) (v : α) :
    Map.get? (Map.set m x v) y = if x = y then some v else Map.get? m y := by
  induction m with
  | nil => simp [Map.set, Map.get?]
  | cons c r ih =>
    obtain ⟨k, w⟩ := c
    simp only [Map.set]
    split
    · subst_vars
      simp only [Map.get?]
      split <;> simp_all
    · split
      · simp [Map.get?]
      · simp only [Map.get?, ih]
        split <;> split <;> simp_all

@[simp] theorem Map.get?_set_self {α : Type} (m : Map α) (x : Nat) (v : α) :
    Map.get? (Map.set m x v) x = some v := by simp [Map.get?_set]

theorem Map.get?_set_ne {α : Type} (m : Map α) {x y : Nat} (v : α) (h : y ≠ x) :
    Map.get? (Map.set m x v) y = Map.get? m y := by simp [Map.get?_set, Ne.symm h]

theorem Map.getD_set {α : Type} (m : Map α) (x y : Nat) (v d : α) :
    Map.getD (Map.set m x v) y d = if x = y then v else Map.getD m y d := by
  simp only [Map.getD, Map.get?_set]
  split <;> rfl

@[simp] theorem Map.getD_set_self {α : Type} (m : Map α) (x : Nat) (v d : α) :
    Map.getD (Map.set m x v) x d = v := by simp [Map.getD_set]

theorem Map.getD_set_ne {α : Type} (m : Map α) {x y : Nat} (v d : α) (h : y ≠ x) :
    Map.getD (Map.set m x v) y d = Map.getD m y d := by simp [Map.getD_set, Ne.symm h]

theorem Map.get?_del {α : Type} (m : Map α) (x y : Nat) :
    Map.get? (Map.del m x) y = if x = y then none else Map.get? m y := by
  induction m with
  | nil => simp [Map.del, Map.get?]
  | cons c r ih =>
    obtain ⟨k, w⟩ := c
    simp only [Map.del] at ih
    simp only [Map.del, List.filter_cons, bne_iff_ne, ne_eq]
    split
    · simp only [Map.get?, ih]
      split <;> split <;> simp_all
    · simp only [Decidable.not_not] at *
      subst_vars
      simp only [Map.get?, ih]
      split <;> simp_all

/-! The canonical form (01 R33; assumption 2). -/

theorem Mem.sorted_iff (m : Mem) : m.sorted = true ↔ m.Pairwise fun a b => a.1 < b.1 := by
  induction m with
  | nil => simp [Mem.sorted]
  | cons c r ih =>
    cases r with
    | nil => simp [Mem.sorted]
    | cons d r =>
      simp only [Mem.sorted, Bool.and_eq_true, decide_eq_true_eq, ih]
      constructor
      · rintro ⟨h1, h2⟩
        refine List.Pairwise.cons ?_ h2
        intro e he
        rcases List.mem_cons.mp he with rfl | he
        · exact h1
        · exact Nat.lt_trans h1 (List.rel_of_pairwise_cons h2 he)
      · intro h
        exact ⟨List.rel_of_pairwise_cons h (by simp), (List.pairwise_cons.mp h).2⟩

/-- The canonical form: addresses rise, and no listed byte is 0. -/
theorem Mem.wf_iff (m : Mem) : m.wf = true ↔ (m.Pairwise fun a b => a.1 < b.1) ∧ ∀ c ∈ m, c.2 ≠ 0 := by
  simp [Mem.wf, Mem.sorted_iff]

theorem mem_cellsOf {a : Nat} {bs : List Byte} {c : Host.Cell} (h : c ∈ cellsOf a bs) :
    a ≤ c.1 ∧ c.1 < a + bs.length ∧ c.2 ≠ 0 := by
  induction bs generalizing a with
  | nil => simp [cellsOf] at h
  | cons b r ih =>
    simp only [cellsOf] at h
    split at h
    · have := ih h
      simp only [List.length_cons]
      exact ⟨by omega, by omega, this.2.2⟩
    · simp only [List.length_cons]
      rcases List.mem_cons.mp h with rfl | h
      · exact ⟨Nat.le_refl _, by omega, by assumption⟩
      · have := ih h
        exact ⟨by omega, by omega, this.2.2⟩

theorem cellsOf_rising (a : Nat) (bs : List Byte) : (cellsOf a bs).Pairwise fun c d => c.1 < d.1 := by
  induction bs generalizing a with
  | nil => simp [cellsOf]
  | cons b r ih =>
    simp only [cellsOf]
    split
    · exact ih _
    · refine List.Pairwise.cons ?_ (ih _)
      intro c hc
      have := (mem_cellsOf hc).1
      show a < c.1
      omega

/-- Every memory operation is made of writes, and a write keeps the canonical form. -/
theorem Mem.write_wf {m : Mem} (a : Nat) (bs : List Byte) (h : m.wf = true) : (m.write a bs).wf = true := by
  rw [Mem.wf_iff] at *
  obtain ⟨h1, h2⟩ := h
  unfold Mem.write
  refine ⟨?_, ?_⟩
  · rw [List.pairwise_append, List.pairwise_append]
    refine ⟨h1.filter _, ⟨cellsOf_rising _ _, h1.filter _, ?_⟩, ?_⟩
    · intro c hc d hd
      have := mem_cellsOf hc
      simp only [List.mem_filter, decide_eq_true_eq] at hd
      omega
    · intro c hc d hd
      simp only [List.mem_filter, decide_eq_true_eq] at hc
      rcases List.mem_append.mp hd with hd | hd
      · have := mem_cellsOf hd
        omega
      · simp only [List.mem_filter, decide_eq_true_eq] at hd
        omega
  · intro c hc
    rcases List.mem_append.mp hc with hc | hc
    · exact h2 c (List.mem_filter.mp hc).1
    · rcases List.mem_append.mp hc with hc | hc
      · exact (mem_cellsOf hc).2.2
      · exact h2 c (List.mem_filter.mp hc).1

theorem Mem.writeNum_wf {m : Mem} (a n x : Nat) (h : m.wf = true) : (m.writeNum a n x).wf = true :=
  Mem.write_wf _ _ h

theorem Mem.nil_wf : Mem.wf [] = true := rfl

theorem State.reset_mem_wf : State.reset.mem.wf = true := rfl

/-! Reading what was written. -/

theorem Mem.get_append (m n : Mem) (x : Nat) (h : ∀ c ∈ m, c.1 ≠ x) : Mem.get (m ++ n) x = Mem.get n x := by
  induction m with
  | nil => rfl
  | cons c r ih =>
    obtain ⟨k, b⟩ := c
    have hk : k ≠ x := h (k, b) (by simp)
    simp only [List.cons_append, Mem.get, hk, if_false]
    exact ih fun d hd => h d (List.mem_cons_of_mem _ hd)

theorem Mem.get_unlisted (m : Mem) (x : Nat) (h : ∀ c ∈ m, c.1 ≠ x) : Mem.get m x = 0 := by
  have := Mem.get_append m [] x h
  simpa [Mem.get] using this

theorem Mem.get_filter (m : Mem) (p : Nat → Bool) (x : Nat) (h : p x = true) (n : Mem)
    (hn : (∀ c ∈ m, c.1 ≠ x) ∨ ∀ c ∈ n, c.1 ≠ x) :
    Mem.get (m.filter (fun c => p c.1) ++ n) x = if (m.any fun c => c.1 == x) then Mem.get m x else Mem.get n x := by
  induction m with
  | nil => simp
  | cons c r ih =>
    obtain ⟨k, b⟩ := c
    have ih := ih (hn.imp (fun h d hd => h d (List.mem_cons_of_mem _ hd)) id)
    by_cases hk : k = x
    · subst hk
      simp [h, Mem.get]
    · simp only [List.filter_cons]
      split
      · simp only [List.cons_append, Mem.get, hk, if_false, ih, List.any_cons, beq_eq_false_iff_ne.mpr hk, Bool.false_or]
      · simp only [ih, List.any_cons, beq_eq_false_iff_ne.mpr hk, Bool.false_or, Mem.get, hk, if_false]

theorem Mem.get_cellsOf (a : Nat) (bs : List Byte) (x : Nat) (h : a ≤ x) (n : Mem)
    (hn : ∀ c ∈ n, a + bs.length ≤ c.1) (hx : x < a + bs.length) :
    Mem.get (cellsOf a bs ++ n) x = bs.getD (x - a) 0 := by
  induction bs generalizing a with
  | nil => simp at hx; omega
  | cons b r ih =>
    simp only [List.length_cons] at hx hn
    by_cases ha : a = x
    · subst ha
      simp only [cellsOf, Nat.sub_self, List.getD_cons_zero]
      split
      · rename_i hb
        rw [hb]
        apply Mem.get_unlisted
        intro c hc
        rcases List.mem_append.mp hc with hc | hc
        · have := mem_cellsOf hc
          omega
        · have := hn c hc
          omega
      · simp [Mem.get]
    · have hs : x - a = x - (a + 1) + 1 := by omega
      have := ih (a + 1) (by omega) (fun c hc => by have := hn c hc; omega) (by omega)
      rw [hs, List.getD_cons_succ]
      simp only [cellsOf]
      split
      · exact this
      · simpa [Mem.get, ha] using this

/-- A read after a write gives the bytes written. -/
theorem Mem.get_write_in (m : Mem) (a : Nat) (bs : List Byte) (x : Nat) (h1 : a ≤ x) (h2 : x < a + bs.length) :
    (m.write a bs).get x = bs.getD (x - a) 0 := by
  unfold Mem.write
  rw [Mem.get_append]
  · apply Mem.get_cellsOf _ _ _ h1 _ _ h2
    intro c hc
    simpa using (List.mem_filter.mp hc).2
  · intro c hc
    have := (List.mem_filter.mp hc).2
    simp only [decide_eq_true_eq] at this
    omega

/-- A write changes no other byte. -/
theorem Mem.get_write_out (m : Mem) (a : Nat) (bs : List Byte) (x : Nat) (h : x < a ∨ a + bs.length ≤ x) :
    (m.write a bs).get x = m.get x := by
  have hc : ∀ c ∈ cellsOf a bs, c.1 ≠ x := fun c hc => by
    have := mem_cellsOf hc
    omega
  unfold Mem.write
  have hm : ¬ (m.any fun c => c.1 == x) = true → Mem.get m x = 0 := fun h => by
    apply Mem.get_unlisted
    intro c hc hx
    exact h (List.any_eq_true.mpr ⟨c, hc, by simpa using hx⟩)
  rcases h with h | h
  · rw [Mem.get_filter m (fun k => decide (k < a)) x (by simpa using h) _ (.inr ?_)]
    · split
      · rfl
      · rename_i hf
        rw [hm hf]
        apply Mem.get_unlisted
        intro c h'
        rcases List.mem_append.mp h' with h' | h'
        · exact hc c h'
        · have := (List.mem_filter.mp h').2
          simp only [decide_eq_true_eq] at this
          omega
    · intro c h'
      rcases List.mem_append.mp h' with h' | h'
      · exact hc c h'
      · have := (List.mem_filter.mp h').2
        simp only [decide_eq_true_eq] at this
        omega
  · rw [Mem.get_append, Mem.get_append _ _ _ hc]
    · have := Mem.get_filter m (fun k => decide (a + bs.length ≤ k)) x (by simpa using h) [] (.inr (by simp))
      rw [List.append_nil] at this
      rw [this]
      split
      · rfl
      · rename_i hf
        rw [hm hf]
        rfl
    · intro c h'
      have := (List.mem_filter.mp h').2
      simp only [decide_eq_true_eq] at this
      omega

@[simp] theorem natBytes_length (x n : Nat) : (natBytes x n).length = n := by
  induction n generalizing x with
  | zero => rfl
  | succ n ih => simp [natBytes, ih]

theorem Mem.num_congr (m k : Mem) (a b n : Nat) (h : ∀ i, i < n → m.get (a + i) = k.get (b + i)) :
    m.num a n = k.num b n := by
  induction n generalizing a b with
  | zero => rfl
  | succ n ih =>
    simp only [Mem.num]
    have h0 := h 0 (by omega)
    simp only [Nat.add_zero] at h0
    rw [h0, ih (a + 1) (b + 1)]
    intro i hi
    have := h (i + 1) (by omega)
    simpa [Nat.add_assoc, Nat.add_comm 1 i] using this

theorem Mem.num_lt (m : Mem) (a n : Nat) : m.num a n < 2 ^ (8 * n) := by
  induction n generalizing a with
  | zero => simp [Mem.num]
  | succ n ih =>
    have h1 := ih (a + 1)
    have h2 := (m.get a).isLt
    have : 2 ^ (8 * (n + 1)) = 256 * 2 ^ (8 * n) := by rw [Nat.mul_add, Nat.pow_add]; omega
    simp only [Mem.num]
    omega

/-- A number outside the bytes written keeps its value. -/
theorem Mem.num_write_out (m : Mem) (a : Nat) (bs : List Byte) (b n : Nat) (h : b + n ≤ a ∨ a + bs.length ≤ b) :
    (m.write a bs).num b n = m.num b n :=
  Mem.num_congr _ _ _ _ _ fun i hi => Mem.get_write_out _ _ _ _ (by omega)

theorem Mem.num_of_bytes (m : Mem) (n x a : Nat) (h : ∀ i, i < n → m.get (a + i) = (natBytes x n).getD i 0) :
    m.num a n = x % 2 ^ (8 * n) := by
  induction n generalizing x a with
  | zero => simp [Mem.num, Nat.mod_one]
  | succ n ih =>
    have h0 := h 0 (by omega)
    have h1 := ih (x / 256) (a + 1) fun i hi => by
      have := h (i + 1) (by omega)
      simpa [natBytes, Nat.add_assoc, Nat.add_comm 1 i] using this
    simp only [natBytes, List.getD_cons_zero, Nat.add_zero] at h0
    simp only [Mem.num, h0, h1, BitVec.toNat_ofNat]
    have hp : 2 ^ (8 * (n + 1)) = 256 * 2 ^ (8 * n) := by rw [Nat.mul_add, Nat.pow_add]; omega
    rw [hp, Nat.mod_mul]

/-- A number written reads back. -/
theorem Mem.num_write_same (m : Mem) (a n x : Nat) : (m.write a (natBytes x n)).num a n = x % 2 ^ (8 * n) := by
  apply Mem.num_of_bytes
  intro i hi
  rw [Mem.get_write_in _ _ _ _ (by omega) (by simp; omega)]
  simp

end Sys2Proof.Machine
end

