-- ==== Sys2Proof/Laws/Operands.lean ====
section
/-! SUPPORT. What reading an operand, writing a destination and ending an instruction do, once for every meaning. -/

namespace Sys2Proof.Machine

open Sys2Proof

@[simp] theorem ready_def {s : State} : s.ready = true ↔ ∃ t, s.task? s.cur = some t ∧ t.live = true := by
  unfold State.ready
  split <;> simp_all

/-- A change of the current task depends only on what it makes of that task. -/
theorem upd_congr {s : State} {f g : Task → Task} (h : f s.me = g s.me) : s.upd f = s.upd g := by
  simp only [State.upd, State.updTask]
  cases ht : s.task? s.cur with
  | none => rfl
  | some x =>
    have : s.me = x := by
      simp only [State.task?] at ht
      simp [State.me, State.task, Map.getD, ht]
    rw [this] at h
    simp [h]

/-- read_src gives the value of a readable source (06 R137). -/
theorem readSrc_of_reads {s t : State} {r : Reg} {v : Word} (h : Reads s r v t) : s.readSrc r = .ok (v, t) := by
  obtain ⟨h1, rfl, rfl⟩ := h
  cases r with
  | q n =>
    simp only [canRead] at h1
    simp only [State.readSrc, State.popQ, valueOf, afterRead]
    split
    · contradiction
    · rename_i h
      simp only [h, List.headD_cons, Except.ok.injEq, Prod.mk.injEq, true_and]
      exact upd_congr (by simp [h])
  | _ => rfl

/-- write_dst writes a writable destination (06 R137). -/
theorem writeDst_of_writes {s t : State} {r : Reg} {v : Word} (h : Writes s r v t) : s.writeDst r v = .ok t := by
  obtain ⟨h1, rfl⟩ := h
  cases r with
  | q n =>
    simp only [canWrite] at h1
    simp only [State.writeDst, State.pushQ, afterWrite, h1, if_true]
    exact congrArg Except.ok (upd_congr rfl)
  | _ => rfl

/-- opnd_b gives the immediate or the value of the source (06 R137). -/
theorem opndB_of_readsB {s t : State} {f : ScF} {v : Word} (h : ReadsB s f v t) : s.opndB f = .ok (v, t) := by
  unfold ReadsB at h
  unfold State.opndB
  split at h
  · obtain ⟨rfl, rfl⟩ := h
    simp_all
  · simp_all [readSrc_of_reads h]

/-- Outside a U group, with a true predicate, an instruction's outcome is that of its body (04 R102). -/
theorem runI_of_runs {s : State} {opc : Nat} {hd : Hd} {ds : List Reg} {body : State → Eff} (h : Runs s hd) :
    s.runI opc hd ds body = s.finish opc (body s) := by
  obtain ⟨h1, h2, h3⟩ := h
  simp only [State.runI, h1, h2, h3]
  simp

theorem runWheel_of_runs {s : State} {opc : Nat} {hd : Hd} {body : State → Eff} (h : Runs s hd) :
    s.runWheel opc hd body = s.finish opc (body s) := by
  obtain ⟨h1, h2, h3⟩ := h
  simp only [State.runWheel, h1, h2, h3]
  simp

/-- A body that succeeds completes its instruction. -/
theorem finish_ok {s t : State} {opc : Nat} : s.finish opc (.ok t) = .next (ended t) := rfl

theorem runI_done {s t : State} {opc : Nat} {hd : Hd} {ds : List Reg} {body : State → Eff} (h : Runs s hd)
    (hb : body s = .ok t) : s.runI opc hd ds body = .next (ended t) := by
  rw [runI_of_runs h, hb, finish_ok]

theorem runV_done {s t : State} {opc : Nat} {body : State → Eff} (h : s.ready = true) (hb : body s = .ok t) :
    s.runV opc body = .next (ended t) := by
  simp only [State.runV, h, hb, finish_ok]
  simp

theorem un_done {s s1 t : State} {f : ScF} {g : Word → Word} {a : Word} (ha : Reads s f.a a s1)
    (hd : Writes s1 f.d (g a) t) : s.un f g = .ok t := by
  simp [State.un, readSrc_of_reads ha, writeDst_of_writes hd, bind, Except.bind]

theorem bin_done {s s1 s2 t : State} {f : ScF} {g : Word → Word → Word} {a b : Word} (ha : Reads s f.a a s1)
    (hb : ReadsB s1 f b s2) (hd : Writes s2 f.d (g a b) t) : s.bin f g = .ok t := by
  simp [State.bin, readSrc_of_reads ha, opndB_of_readsB hb, writeDst_of_writes hd, bind, Except.bind]

theorem tern_done {s s1 s2 s3 t : State} {f : ScF} {g : Word → Word → Word → Word} {a b c : Word}
    (ha : Reads s f.a a s1) (hb : ReadsB s1 f b s2) (hc : Reads s2 f.c c s3) (hd : Writes s3 f.d (g a b c) t) :
    s.tern f g = .ok t := by
  simp [State.tern, readSrc_of_reads ha, opndB_of_readsB hb, readSrc_of_reads hc, writeDst_of_writes hd, bind,
    Except.bind]

end Sys2Proof.Machine
end

