-- ==== Sys2Proof/Laws/State.lean ====
section
/-! SUPPORT. What each base update leaves in each field of State: one lemma per field per update. -/

namespace Sys2Proof.Machine

open Sys2Proof


section

variable {s : State} {t : Nat} {x : Task}

@[simp] theorem State.setTask_part : (s.setTask t x).part = s.part := rfl
@[simp] theorem State.setTask_present : (s.setTask t x).present = s.present := rfl
@[simp] theorem State.setTask_rollback : (s.setTask t x).rollback = s.rollback := rfl
@[simp] theorem State.setTask_cycle : (s.setTask t x).cycle = s.cycle := rfl
@[simp] theorem State.setTask_devset : (s.setTask t x).devset = s.devset := rfl
@[simp] theorem State.setTask_devnum : (s.setTask t x).devnum = s.devnum := rfl
@[simp] theorem State.setTask_fabthr : (s.setTask t x).fabthr = s.fabthr := rfl
@[simp] theorem State.setTask_cohctl : (s.setTask t x).cohctl = s.cohctl := rfl
@[simp] theorem State.setTask_delBound : (s.setTask t x).delBound = s.delBound := rfl
@[simp] theorem State.setTask_delDrop : (s.setTask t x).delDrop = s.delDrop := rfl
@[simp] theorem State.setTask_slfold : (s.setTask t x).slfold = s.slfold := rfl
@[simp] theorem State.setTask_foldstat : (s.setTask t x).foldstat = s.foldstat := rfl
@[simp] theorem State.setTask_foldTo : (s.setTask t x).foldTo = s.foldTo := rfl
@[simp] theorem State.setTask_uetcfg : (s.setTask t x).uetcfg = s.uetcfg := rfl
@[simp] theorem State.setTask_uetrto : (s.setTask t x).uetrto = s.uetrto := rfl
@[simp] theorem State.setTask_uetretry : (s.setTask t x).uetretry = s.uetretry := rfl
@[simp] theorem State.setTask_uetmap : (s.setTask t x).uetmap = s.uetmap := rfl
@[simp] theorem State.setTask_uetTable : (s.setTask t x).uetTable = s.uetTable := rfl
@[simp] theorem State.setTask_mem : (s.setTask t x).mem = s.mem := rfl
@[simp] theorem State.setTask_poison : (s.setTask t x).poison = s.poison := rfl
@[simp] theorem State.setTask_lost : (s.setTask t x).lost = s.lost := rfl
@[simp] theorem State.setTask_recover : (s.setTask t x).recover = s.recover := rfl
@[simp] theorem State.setTask_dir : (s.setTask t x).dir = s.dir := rfl
@[simp] theorem State.setTask_tlb : (s.setTask t x).tlb = s.tlb := rfl
@[simp] theorem State.setTask_wit : (s.setTask t x).wit = s.wit := rfl
@[simp] theorem State.setTask_lineHist : (s.setTask t x).lineHist = s.lineHist := rfl
@[simp] theorem State.setTask_shadow : (s.setTask t x).shadow = s.shadow := rfl
@[simp] theorem State.setTask_shadowTold : (s.setTask t x).shadowTold = s.shadowTold := rfl
@[simp] theorem State.setTask_rels : (s.setTask t x).rels = s.rels := rfl
@[simp] theorem State.setTask_parties : (s.setTask t x).parties = s.parties := rfl
@[simp] theorem State.setTask_tasks : (s.setTask t x).tasks = s.tasks.set t x := rfl
@[simp] theorem State.setTask_frames : (s.setTask t x).frames = s.frames := rfl
@[simp] theorem State.setTask_doms : (s.setTask t x).doms = s.doms := rfl
@[simp] theorem State.setTask_tiles : (s.setTask t x).tiles = s.tiles := rfl
@[simp] theorem State.setTask_cluss : (s.setTask t x).cluss = s.cluss := rfl
@[simp] theorem State.setTask_dies : (s.setTask t x).dies = s.dies := rfl
@[simp] theorem State.setTask_gangs : (s.setTask t x).gangs = s.gangs := rfl
@[simp] theorem State.setTask_gangSeq : (s.setTask t x).gangSeq = s.gangSeq := rfl
@[simp] theorem State.setTask_compacts : (s.setTask t x).compacts = s.compacts := rfl
@[simp] theorem State.setTask_injq : (s.setTask t x).injq = s.injq := rfl
@[simp] theorem State.setTask_flits : (s.setTask t x).flits = s.flits := rfl
@[simp] theorem State.setTask_fk : (s.setTask t x).fk = s.fk := rfl
@[simp] theorem State.setTask_cycled : (s.setTask t x).cycled = s.cycled := rfl
@[simp] theorem State.setTask_downLinks : (s.setTask t x).downLinks = s.downLinks := rfl
@[simp] theorem State.setTask_slots : (s.setTask t x).slots = s.slots := rfl
@[simp] theorem State.setTask_sends : (s.setTask t x).sends = s.sends := rfl
@[simp] theorem State.setTask_rarrs : (s.setTask t x).rarrs = s.rarrs := rfl
@[simp] theorem State.setTask_pbdecs : (s.setTask t x).pbdecs = s.pbdecs := rfl
@[simp] theorem State.setTask_parked : (s.setTask t x).parked = s.parked := rfl
@[simp] theorem State.setTask_barWrites : (s.setTask t x).barWrites = s.barWrites := rfl
@[simp] theorem State.setTask_barReads : (s.setTask t x).barReads = s.barReads := rfl
@[simp] theorem State.setTask_lockWaits : (s.setTask t x).lockWaits = s.lockWaits := rfl
@[simp] theorem State.setTask_strays : (s.setTask t x).strays = s.strays := rfl
@[simp] theorem State.setTask_gangJoins : (s.setTask t x).gangJoins = s.gangJoins := rfl
@[simp] theorem State.setTask_uetOut : (s.setTask t x).uetOut = s.uetOut := rfl
@[simp] theorem State.setTask_uetSeen : (s.setTask t x).uetSeen = s.uetSeen := rfl
@[simp] theorem State.setTask_inbox : (s.setTask t x).inbox = s.inbox := rfl
@[simp] theorem State.setTask_ended : (s.setTask t x).ended = s.ended := rfl
@[simp] theorem State.setTask_signFails : (s.setTask t x).signFails = s.signFails := rfl
@[simp] theorem State.setTask_nextId : (s.setTask t x).nextId = s.nextId := rfl
@[simp] theorem State.setTask_mboxes : (s.setTask t x).mboxes = s.mboxes := rfl
@[simp] theorem State.setTask_msixHost : (s.setTask t x).msixHost = s.msixHost := rfl
@[simp] theorem State.setTask_msixPeer : (s.setTask t x).msixPeer = s.msixPeer := rfl
@[simp] theorem State.setTask_bootaddr : (s.setTask t x).bootaddr = s.bootaddr := rfl
@[simp] theorem State.setTask_bootstat : (s.setTask t x).bootstat = s.bootstat := rfl
@[simp] theorem State.setTask_measure : (s.setTask t x).measure = s.measure := rfl
@[simp] theorem State.setTask_measured : (s.setTask t x).measured = s.measured := rfl
@[simp] theorem State.setTask_version : (s.setTask t x).version = s.version := rfl
@[simp] theorem State.setTask_pklimit : (s.setTask t x).pklimit = s.pklimit := rfl
@[simp] theorem State.setTask_capping : (s.setTask t x).capping = s.capping := rfl
@[simp] theorem State.setTask_sensors : (s.setTask t x).sensors = s.sensors := rfl
@[simp] theorem State.setTask_ioErrors : (s.setTask t x).ioErrors = s.ioErrors := rfl
@[simp] theorem State.setTask_notices : (s.setTask t x).notices = s.notices := rfl
@[simp] theorem State.setTask_outputs : (s.setTask t x).outputs = s.outputs := rfl
@[simp] theorem State.setTask_agenda : (s.setTask t x).agenda = s.agenda := rfl
@[simp] theorem State.setTask_cur : (s.setTask t x).cur = s.cur := rfl
@[simp] theorem State.setTask_cx : (s.setTask t x).cx = s.cx := rfl
@[simp] theorem State.setTask_ckRank : (s.setTask t x).ckRank = s.ckRank := rfl
@[simp] theorem State.setTask_fresh : (s.setTask t x).fresh = s.fresh := rfl

end

section

variable {s : State} {t : Nat} {x : Tile}

@[simp] theorem State.setTile_part : (s.setTile t x).part = s.part := rfl
@[simp] theorem State.setTile_present : (s.setTile t x).present = s.present := rfl
@[simp] theorem State.setTile_rollback : (s.setTile t x).rollback = s.rollback := rfl
@[simp] theorem State.setTile_cycle : (s.setTile t x).cycle = s.cycle := rfl
@[simp] theorem State.setTile_devset : (s.setTile t x).devset = s.devset := rfl
@[simp] theorem State.setTile_devnum : (s.setTile t x).devnum = s.devnum := rfl
@[simp] theorem State.setTile_fabthr : (s.setTile t x).fabthr = s.fabthr := rfl
@[simp] theorem State.setTile_cohctl : (s.setTile t x).cohctl = s.cohctl := rfl
@[simp] theorem State.setTile_delBound : (s.setTile t x).delBound = s.delBound := rfl
@[simp] theorem State.setTile_delDrop : (s.setTile t x).delDrop = s.delDrop := rfl
@[simp] theorem State.setTile_slfold : (s.setTile t x).slfold = s.slfold := rfl
@[simp] theorem State.setTile_foldstat : (s.setTile t x).foldstat = s.foldstat := rfl
@[simp] theorem State.setTile_foldTo : (s.setTile t x).foldTo = s.foldTo := rfl
@[simp] theorem State.setTile_uetcfg : (s.setTile t x).uetcfg = s.uetcfg := rfl
@[simp] theorem State.setTile_uetrto : (s.setTile t x).uetrto = s.uetrto := rfl
@[simp] theorem State.setTile_uetretry : (s.setTile t x).uetretry = s.uetretry := rfl
@[simp] theorem State.setTile_uetmap : (s.setTile t x).uetmap = s.uetmap := rfl
@[simp] theorem State.setTile_uetTable : (s.setTile t x).uetTable = s.uetTable := rfl
@[simp] theorem State.setTile_mem : (s.setTile t x).mem = s.mem := rfl
@[simp] theorem State.setTile_poison : (s.setTile t x).poison = s.poison := rfl
@[simp] theorem State.setTile_lost : (s.setTile t x).lost = s.lost := rfl
@[simp] theorem State.setTile_recover : (s.setTile t x).recover = s.recover := rfl
@[simp] theorem State.setTile_dir : (s.setTile t x).dir = s.dir := rfl
@[simp] theorem State.setTile_tlb : (s.setTile t x).tlb = s.tlb := rfl
@[simp] theorem State.setTile_wit : (s.setTile t x).wit = s.wit := rfl
@[simp] theorem State.setTile_lineHist : (s.setTile t x).lineHist = s.lineHist := rfl
@[simp] theorem State.setTile_shadow : (s.setTile t x).shadow = s.shadow := rfl
@[simp] theorem State.setTile_shadowTold : (s.setTile t x).shadowTold = s.shadowTold := rfl
@[simp] theorem State.setTile_rels : (s.setTile t x).rels = s.rels := rfl
@[simp] theorem State.setTile_parties : (s.setTile t x).parties = s.parties := rfl
@[simp] theorem State.setTile_tasks : (s.setTile t x).tasks = s.tasks := rfl
@[simp] theorem State.setTile_frames : (s.setTile t x).frames = s.frames := rfl
@[simp] theorem State.setTile_doms : (s.setTile t x).doms = s.doms := rfl
@[simp] theorem State.setTile_tiles : (s.setTile t x).tiles = s.tiles.set t x := rfl
@[simp] theorem State.setTile_cluss : (s.setTile t x).cluss = s.cluss := rfl
@[simp] theorem State.setTile_dies : (s.setTile t x).dies = s.dies := rfl
@[simp] theorem State.setTile_gangs : (s.setTile t x).gangs = s.gangs := rfl
@[simp] theorem State.setTile_gangSeq : (s.setTile t x).gangSeq = s.gangSeq := rfl
@[simp] theorem State.setTile_compacts : (s.setTile t x).compacts = s.compacts := rfl
@[simp] theorem State.setTile_injq : (s.setTile t x).injq = s.injq := rfl
@[simp] theorem State.setTile_flits : (s.setTile t x).flits = s.flits := rfl
@[simp] theorem State.setTile_fk : (s.setTile t x).fk = s.fk := rfl
@[simp] theorem State.setTile_cycled : (s.setTile t x).cycled = s.cycled := rfl
@[simp] theorem State.setTile_downLinks : (s.setTile t x).downLinks = s.downLinks := rfl
@[simp] theorem State.setTile_slots : (s.setTile t x).slots = s.slots := rfl
@[simp] theorem State.setTile_sends : (s.setTile t x).sends = s.sends := rfl
@[simp] theorem State.setTile_rarrs : (s.setTile t x).rarrs = s.rarrs := rfl
@[simp] theorem State.setTile_pbdecs : (s.setTile t x).pbdecs = s.pbdecs := rfl
@[simp] theorem State.setTile_parked : (s.setTile t x).parked = s.parked := rfl
@[simp] theorem State.setTile_barWrites : (s.setTile t x).barWrites = s.barWrites := rfl
@[simp] theorem State.setTile_barReads : (s.setTile t x).barReads = s.barReads := rfl
@[simp] theorem State.setTile_lockWaits : (s.setTile t x).lockWaits = s.lockWaits := rfl
@[simp] theorem State.setTile_strays : (s.setTile t x).strays = s.strays := rfl
@[simp] theorem State.setTile_gangJoins : (s.setTile t x).gangJoins = s.gangJoins := rfl
@[simp] theorem State.setTile_uetOut : (s.setTile t x).uetOut = s.uetOut := rfl
@[simp] theorem State.setTile_uetSeen : (s.setTile t x).uetSeen = s.uetSeen := rfl
@[simp] theorem State.setTile_inbox : (s.setTile t x).inbox = s.inbox := rfl
@[simp] theorem State.setTile_ended : (s.setTile t x).ended = s.ended := rfl
@[simp] theorem State.setTile_signFails : (s.setTile t x).signFails = s.signFails := rfl
@[simp] theorem State.setTile_nextId : (s.setTile t x).nextId = s.nextId := rfl
@[simp] theorem State.setTile_mboxes : (s.setTile t x).mboxes = s.mboxes := rfl
@[simp] theorem State.setTile_msixHost : (s.setTile t x).msixHost = s.msixHost := rfl
@[simp] theorem State.setTile_msixPeer : (s.setTile t x).msixPeer = s.msixPeer := rfl
@[simp] theorem State.setTile_bootaddr : (s.setTile t x).bootaddr = s.bootaddr := rfl
@[simp] theorem State.setTile_bootstat : (s.setTile t x).bootstat = s.bootstat := rfl
@[simp] theorem State.setTile_measure : (s.setTile t x).measure = s.measure := rfl
@[simp] theorem State.setTile_measured : (s.setTile t x).measured = s.measured := rfl
@[simp] theorem State.setTile_version : (s.setTile t x).version = s.version := rfl
@[simp] theorem State.setTile_pklimit : (s.setTile t x).pklimit = s.pklimit := rfl
@[simp] theorem State.setTile_capping : (s.setTile t x).capping = s.capping := rfl
@[simp] theorem State.setTile_sensors : (s.setTile t x).sensors = s.sensors := rfl
@[simp] theorem State.setTile_ioErrors : (s.setTile t x).ioErrors = s.ioErrors := rfl
@[simp] theorem State.setTile_notices : (s.setTile t x).notices = s.notices := rfl
@[simp] theorem State.setTile_outputs : (s.setTile t x).outputs = s.outputs := rfl
@[simp] theorem State.setTile_agenda : (s.setTile t x).agenda = s.agenda := rfl
@[simp] theorem State.setTile_cur : (s.setTile t x).cur = s.cur := rfl
@[simp] theorem State.setTile_cx : (s.setTile t x).cx = s.cx := rfl
@[simp] theorem State.setTile_ckRank : (s.setTile t x).ckRank = s.ckRank := rfl
@[simp] theorem State.setTile_fresh : (s.setTile t x).fresh = s.fresh := rfl

end

section

variable {s : State} {c : Nat} {x : Clus}

@[simp] theorem State.setClus_part : (s.setClus c x).part = s.part := rfl
@[simp] theorem State.setClus_present : (s.setClus c x).present = s.present := rfl
@[simp] theorem State.setClus_rollback : (s.setClus c x).rollback = s.rollback := rfl
@[simp] theorem State.setClus_cycle : (s.setClus c x).cycle = s.cycle := rfl
@[simp] theorem State.setClus_devset : (s.setClus c x).devset = s.devset := rfl
@[simp] theorem State.setClus_devnum : (s.setClus c x).devnum = s.devnum := rfl
@[simp] theorem State.setClus_fabthr : (s.setClus c x).fabthr = s.fabthr := rfl
@[simp] theorem State.setClus_cohctl : (s.setClus c x).cohctl = s.cohctl := rfl
@[simp] theorem State.setClus_delBound : (s.setClus c x).delBound = s.delBound := rfl
@[simp] theorem State.setClus_delDrop : (s.setClus c x).delDrop = s.delDrop := rfl
@[simp] theorem State.setClus_slfold : (s.setClus c x).slfold = s.slfold := rfl
@[simp] theorem State.setClus_foldstat : (s.setClus c x).foldstat = s.foldstat := rfl
@[simp] theorem State.setClus_foldTo : (s.setClus c x).foldTo = s.foldTo := rfl
@[simp] theorem State.setClus_uetcfg : (s.setClus c x).uetcfg = s.uetcfg := rfl
@[simp] theorem State.setClus_uetrto : (s.setClus c x).uetrto = s.uetrto := rfl
@[simp] theorem State.setClus_uetretry : (s.setClus c x).uetretry = s.uetretry := rfl
@[simp] theorem State.setClus_uetmap : (s.setClus c x).uetmap = s.uetmap := rfl
@[simp] theorem State.setClus_uetTable : (s.setClus c x).uetTable = s.uetTable := rfl
@[simp] theorem State.setClus_mem : (s.setClus c x).mem = s.mem := rfl
@[simp] theorem State.setClus_poison : (s.setClus c x).poison = s.poison := rfl
@[simp] theorem State.setClus_lost : (s.setClus c x).lost = s.lost := rfl
@[simp] theorem State.setClus_recover : (s.setClus c x).recover = s.recover := rfl
@[simp] theorem State.setClus_dir : (s.setClus c x).dir = s.dir := rfl
@[simp] theorem State.setClus_tlb : (s.setClus c x).tlb = s.tlb := rfl
@[simp] theorem State.setClus_wit : (s.setClus c x).wit = s.wit := rfl
@[simp] theorem State.setClus_lineHist : (s.setClus c x).lineHist = s.lineHist := rfl
@[simp] theorem State.setClus_shadow : (s.setClus c x).shadow = s.shadow := rfl
@[simp] theorem State.setClus_shadowTold : (s.setClus c x).shadowTold = s.shadowTold := rfl
@[simp] theorem State.setClus_rels : (s.setClus c x).rels = s.rels := rfl
@[simp] theorem State.setClus_parties : (s.setClus c x).parties = s.parties := rfl
@[simp] theorem State.setClus_tasks : (s.setClus c x).tasks = s.tasks := rfl
@[simp] theorem State.setClus_frames : (s.setClus c x).frames = s.frames := rfl
@[simp] theorem State.setClus_doms : (s.setClus c x).doms = s.doms := rfl
@[simp] theorem State.setClus_tiles : (s.setClus c x).tiles = s.tiles := rfl
@[simp] theorem State.setClus_cluss : (s.setClus c x).cluss = s.cluss.set c x := rfl
@[simp] theorem State.setClus_dies : (s.setClus c x).dies = s.dies := rfl
@[simp] theorem State.setClus_gangs : (s.setClus c x).gangs = s.gangs := rfl
@[simp] theorem State.setClus_gangSeq : (s.setClus c x).gangSeq = s.gangSeq := rfl
@[simp] theorem State.setClus_compacts : (s.setClus c x).compacts = s.compacts := rfl
@[simp] theorem State.setClus_injq : (s.setClus c x).injq = s.injq := rfl
@[simp] theorem State.setClus_flits : (s.setClus c x).flits = s.flits := rfl
@[simp] theorem State.setClus_fk : (s.setClus c x).fk = s.fk := rfl
@[simp] theorem State.setClus_cycled : (s.setClus c x).cycled = s.cycled := rfl
@[simp] theorem State.setClus_downLinks : (s.setClus c x).downLinks = s.downLinks := rfl
@[simp] theorem State.setClus_slots : (s.setClus c x).slots = s.slots := rfl
@[simp] theorem State.setClus_sends : (s.setClus c x).sends = s.sends := rfl
@[simp] theorem State.setClus_rarrs : (s.setClus c x).rarrs = s.rarrs := rfl
@[simp] theorem State.setClus_pbdecs : (s.setClus c x).pbdecs = s.pbdecs := rfl
@[simp] theorem State.setClus_parked : (s.setClus c x).parked = s.parked := rfl
@[simp] theorem State.setClus_barWrites : (s.setClus c x).barWrites = s.barWrites := rfl
@[simp] theorem State.setClus_barReads : (s.setClus c x).barReads = s.barReads := rfl
@[simp] theorem State.setClus_lockWaits : (s.setClus c x).lockWaits = s.lockWaits := rfl
@[simp] theorem State.setClus_strays : (s.setClus c x).strays = s.strays := rfl
@[simp] theorem State.setClus_gangJoins : (s.setClus c x).gangJoins = s.gangJoins := rfl
@[simp] theorem State.setClus_uetOut : (s.setClus c x).uetOut = s.uetOut := rfl
@[simp] theorem State.setClus_uetSeen : (s.setClus c x).uetSeen = s.uetSeen := rfl
@[simp] theorem State.setClus_inbox : (s.setClus c x).inbox = s.inbox := rfl
@[simp] theorem State.setClus_ended : (s.setClus c x).ended = s.ended := rfl
@[simp] theorem State.setClus_signFails : (s.setClus c x).signFails = s.signFails := rfl
@[simp] theorem State.setClus_nextId : (s.setClus c x).nextId = s.nextId := rfl
@[simp] theorem State.setClus_mboxes : (s.setClus c x).mboxes = s.mboxes := rfl
@[simp] theorem State.setClus_msixHost : (s.setClus c x).msixHost = s.msixHost := rfl
@[simp] theorem State.setClus_msixPeer : (s.setClus c x).msixPeer = s.msixPeer := rfl
@[simp] theorem State.setClus_bootaddr : (s.setClus c x).bootaddr = s.bootaddr := rfl
@[simp] theorem State.setClus_bootstat : (s.setClus c x).bootstat = s.bootstat := rfl
@[simp] theorem State.setClus_measure : (s.setClus c x).measure = s.measure := rfl
@[simp] theorem State.setClus_measured : (s.setClus c x).measured = s.measured := rfl
@[simp] theorem State.setClus_version : (s.setClus c x).version = s.version := rfl
@[simp] theorem State.setClus_pklimit : (s.setClus c x).pklimit = s.pklimit := rfl
@[simp] theorem State.setClus_capping : (s.setClus c x).capping = s.capping := rfl
@[simp] theorem State.setClus_sensors : (s.setClus c x).sensors = s.sensors := rfl
@[simp] theorem State.setClus_ioErrors : (s.setClus c x).ioErrors = s.ioErrors := rfl
@[simp] theorem State.setClus_notices : (s.setClus c x).notices = s.notices := rfl
@[simp] theorem State.setClus_outputs : (s.setClus c x).outputs = s.outputs := rfl
@[simp] theorem State.setClus_agenda : (s.setClus c x).agenda = s.agenda := rfl
@[simp] theorem State.setClus_cur : (s.setClus c x).cur = s.cur := rfl
@[simp] theorem State.setClus_cx : (s.setClus c x).cx = s.cx := rfl
@[simp] theorem State.setClus_ckRank : (s.setClus c x).ckRank = s.ckRank := rfl
@[simp] theorem State.setClus_fresh : (s.setClus c x).fresh = s.fresh := rfl

end

section

variable {s : State} {d : Nat} {x : Die}

@[simp] theorem State.setDie_part : (s.setDie d x).part = s.part := rfl
@[simp] theorem State.setDie_present : (s.setDie d x).present = s.present := rfl
@[simp] theorem State.setDie_rollback : (s.setDie d x).rollback = s.rollback := rfl
@[simp] theorem State.setDie_cycle : (s.setDie d x).cycle = s.cycle := rfl
@[simp] theorem State.setDie_devset : (s.setDie d x).devset = s.devset := rfl
@[simp] theorem State.setDie_devnum : (s.setDie d x).devnum = s.devnum := rfl
@[simp] theorem State.setDie_fabthr : (s.setDie d x).fabthr = s.fabthr := rfl
@[simp] theorem State.setDie_cohctl : (s.setDie d x).cohctl = s.cohctl := rfl
@[simp] theorem State.setDie_delBound : (s.setDie d x).delBound = s.delBound := rfl
@[simp] theorem State.setDie_delDrop : (s.setDie d x).delDrop = s.delDrop := rfl
@[simp] theorem State.setDie_slfold : (s.setDie d x).slfold = s.slfold := rfl
@[simp] theorem State.setDie_foldstat : (s.setDie d x).foldstat = s.foldstat := rfl
@[simp] theorem State.setDie_foldTo : (s.setDie d x).foldTo = s.foldTo := rfl
@[simp] theorem State.setDie_uetcfg : (s.setDie d x).uetcfg = s.uetcfg := rfl
@[simp] theorem State.setDie_uetrto : (s.setDie d x).uetrto = s.uetrto := rfl
@[simp] theorem State.setDie_uetretry : (s.setDie d x).uetretry = s.uetretry := rfl
@[simp] theorem State.setDie_uetmap : (s.setDie d x).uetmap = s.uetmap := rfl
@[simp] theorem State.setDie_uetTable : (s.setDie d x).uetTable = s.uetTable := rfl
@[simp] theorem State.setDie_mem : (s.setDie d x).mem = s.mem := rfl
@[simp] theorem State.setDie_poison : (s.setDie d x).poison = s.poison := rfl
@[simp] theorem State.setDie_lost : (s.setDie d x).lost = s.lost := rfl
@[simp] theorem State.setDie_recover : (s.setDie d x).recover = s.recover := rfl
@[simp] theorem State.setDie_dir : (s.setDie d x).dir = s.dir := rfl
@[simp] theorem State.setDie_tlb : (s.setDie d x).tlb = s.tlb := rfl
@[simp] theorem State.setDie_wit : (s.setDie d x).wit = s.wit := rfl
@[simp] theorem State.setDie_lineHist : (s.setDie d x).lineHist = s.lineHist := rfl
@[simp] theorem State.setDie_shadow : (s.setDie d x).shadow = s.shadow := rfl
@[simp] theorem State.setDie_shadowTold : (s.setDie d x).shadowTold = s.shadowTold := rfl
@[simp] theorem State.setDie_rels : (s.setDie d x).rels = s.rels := rfl
@[simp] theorem State.setDie_parties : (s.setDie d x).parties = s.parties := rfl
@[simp] theorem State.setDie_tasks : (s.setDie d x).tasks = s.tasks := rfl
@[simp] theorem State.setDie_frames : (s.setDie d x).frames = s.frames := rfl
@[simp] theorem State.setDie_doms : (s.setDie d x).doms = s.doms := rfl
@[simp] theorem State.setDie_tiles : (s.setDie d x).tiles = s.tiles := rfl
@[simp] theorem State.setDie_cluss : (s.setDie d x).cluss = s.cluss := rfl
@[simp] theorem State.setDie_dies : (s.setDie d x).dies = s.dies.set d x := rfl
@[simp] theorem State.setDie_gangs : (s.setDie d x).gangs = s.gangs := rfl
@[simp] theorem State.setDie_gangSeq : (s.setDie d x).gangSeq = s.gangSeq := rfl
@[simp] theorem State.setDie_compacts : (s.setDie d x).compacts = s.compacts := rfl
@[simp] theorem State.setDie_injq : (s.setDie d x).injq = s.injq := rfl
@[simp] theorem State.setDie_flits : (s.setDie d x).flits = s.flits := rfl
@[simp] theorem State.setDie_fk : (s.setDie d x).fk = s.fk := rfl
@[simp] theorem State.setDie_cycled : (s.setDie d x).cycled = s.cycled := rfl
@[simp] theorem State.setDie_downLinks : (s.setDie d x).downLinks = s.downLinks := rfl
@[simp] theorem State.setDie_slots : (s.setDie d x).slots = s.slots := rfl
@[simp] theorem State.setDie_sends : (s.setDie d x).sends = s.sends := rfl
@[simp] theorem State.setDie_rarrs : (s.setDie d x).rarrs = s.rarrs := rfl
@[simp] theorem State.setDie_pbdecs : (s.setDie d x).pbdecs = s.pbdecs := rfl
@[simp] theorem State.setDie_parked : (s.setDie d x).parked = s.parked := rfl
@[simp] theorem State.setDie_barWrites : (s.setDie d x).barWrites = s.barWrites := rfl
@[simp] theorem State.setDie_barReads : (s.setDie d x).barReads = s.barReads := rfl
@[simp] theorem State.setDie_lockWaits : (s.setDie d x).lockWaits = s.lockWaits := rfl
@[simp] theorem State.setDie_strays : (s.setDie d x).strays = s.strays := rfl
@[simp] theorem State.setDie_gangJoins : (s.setDie d x).gangJoins = s.gangJoins := rfl
@[simp] theorem State.setDie_uetOut : (s.setDie d x).uetOut = s.uetOut := rfl
@[simp] theorem State.setDie_uetSeen : (s.setDie d x).uetSeen = s.uetSeen := rfl
@[simp] theorem State.setDie_inbox : (s.setDie d x).inbox = s.inbox := rfl
@[simp] theorem State.setDie_ended : (s.setDie d x).ended = s.ended := rfl
@[simp] theorem State.setDie_signFails : (s.setDie d x).signFails = s.signFails := rfl
@[simp] theorem State.setDie_nextId : (s.setDie d x).nextId = s.nextId := rfl
@[simp] theorem State.setDie_mboxes : (s.setDie d x).mboxes = s.mboxes := rfl
@[simp] theorem State.setDie_msixHost : (s.setDie d x).msixHost = s.msixHost := rfl
@[simp] theorem State.setDie_msixPeer : (s.setDie d x).msixPeer = s.msixPeer := rfl
@[simp] theorem State.setDie_bootaddr : (s.setDie d x).bootaddr = s.bootaddr := rfl
@[simp] theorem State.setDie_bootstat : (s.setDie d x).bootstat = s.bootstat := rfl
@[simp] theorem State.setDie_measure : (s.setDie d x).measure = s.measure := rfl
@[simp] theorem State.setDie_measured : (s.setDie d x).measured = s.measured := rfl
@[simp] theorem State.setDie_version : (s.setDie d x).version = s.version := rfl
@[simp] theorem State.setDie_pklimit : (s.setDie d x).pklimit = s.pklimit := rfl
@[simp] theorem State.setDie_capping : (s.setDie d x).capping = s.capping := rfl
@[simp] theorem State.setDie_sensors : (s.setDie d x).sensors = s.sensors := rfl
@[simp] theorem State.setDie_ioErrors : (s.setDie d x).ioErrors = s.ioErrors := rfl
@[simp] theorem State.setDie_notices : (s.setDie d x).notices = s.notices := rfl
@[simp] theorem State.setDie_outputs : (s.setDie d x).outputs = s.outputs := rfl
@[simp] theorem State.setDie_agenda : (s.setDie d x).agenda = s.agenda := rfl
@[simp] theorem State.setDie_cur : (s.setDie d x).cur = s.cur := rfl
@[simp] theorem State.setDie_cx : (s.setDie d x).cx = s.cx := rfl
@[simp] theorem State.setDie_ckRank : (s.setDie d x).ckRank = s.ckRank := rfl
@[simp] theorem State.setDie_fresh : (s.setDie d x).fresh = s.fresh := rfl

end

section

variable {s : State} {d : Nat} {x : Dom}

@[simp] theorem State.setDom_part : (s.setDom d x).part = s.part := rfl
@[simp] theorem State.setDom_present : (s.setDom d x).present = s.present := rfl
@[simp] theorem State.setDom_rollback : (s.setDom d x).rollback = s.rollback := rfl
@[simp] theorem State.setDom_cycle : (s.setDom d x).cycle = s.cycle := rfl
@[simp] theorem State.setDom_devset : (s.setDom d x).devset = s.devset := rfl
@[simp] theorem State.setDom_devnum : (s.setDom d x).devnum = s.devnum := rfl
@[simp] theorem State.setDom_fabthr : (s.setDom d x).fabthr = s.fabthr := rfl
@[simp] theorem State.setDom_cohctl : (s.setDom d x).cohctl = s.cohctl := rfl
@[simp] theorem State.setDom_delBound : (s.setDom d x).delBound = s.delBound := rfl
@[simp] theorem State.setDom_delDrop : (s.setDom d x).delDrop = s.delDrop := rfl
@[simp] theorem State.setDom_slfold : (s.setDom d x).slfold = s.slfold := rfl
@[simp] theorem State.setDom_foldstat : (s.setDom d x).foldstat = s.foldstat := rfl
@[simp] theorem State.setDom_foldTo : (s.setDom d x).foldTo = s.foldTo := rfl
@[simp] theorem State.setDom_uetcfg : (s.setDom d x).uetcfg = s.uetcfg := rfl
@[simp] theorem State.setDom_uetrto : (s.setDom d x).uetrto = s.uetrto := rfl
@[simp] theorem State.setDom_uetretry : (s.setDom d x).uetretry = s.uetretry := rfl
@[simp] theorem State.setDom_uetmap : (s.setDom d x).uetmap = s.uetmap := rfl
@[simp] theorem State.setDom_uetTable : (s.setDom d x).uetTable = s.uetTable := rfl
@[simp] theorem State.setDom_mem : (s.setDom d x).mem = s.mem := rfl
@[simp] theorem State.setDom_poison : (s.setDom d x).poison = s.poison := rfl
@[simp] theorem State.setDom_lost : (s.setDom d x).lost = s.lost := rfl
@[simp] theorem State.setDom_recover : (s.setDom d x).recover = s.recover := rfl
@[simp] theorem State.setDom_dir : (s.setDom d x).dir = s.dir := rfl
@[simp] theorem State.setDom_tlb : (s.setDom d x).tlb = s.tlb := rfl
@[simp] theorem State.setDom_wit : (s.setDom d x).wit = s.wit := rfl
@[simp] theorem State.setDom_lineHist : (s.setDom d x).lineHist = s.lineHist := rfl
@[simp] theorem State.setDom_shadow : (s.setDom d x).shadow = s.shadow := rfl
@[simp] theorem State.setDom_shadowTold : (s.setDom d x).shadowTold = s.shadowTold := rfl
@[simp] theorem State.setDom_rels : (s.setDom d x).rels = s.rels := rfl
@[simp] theorem State.setDom_parties : (s.setDom d x).parties = s.parties := rfl
@[simp] theorem State.setDom_tasks : (s.setDom d x).tasks = s.tasks := rfl
@[simp] theorem State.setDom_frames : (s.setDom d x).frames = s.frames := rfl
@[simp] theorem State.setDom_doms : (s.setDom d x).doms = s.doms.set d x := rfl
@[simp] theorem State.setDom_tiles : (s.setDom d x).tiles = s.tiles := rfl
@[simp] theorem State.setDom_cluss : (s.setDom d x).cluss = s.cluss := rfl
@[simp] theorem State.setDom_dies : (s.setDom d x).dies = s.dies := rfl
@[simp] theorem State.setDom_gangs : (s.setDom d x).gangs = s.gangs := rfl
@[simp] theorem State.setDom_gangSeq : (s.setDom d x).gangSeq = s.gangSeq := rfl
@[simp] theorem State.setDom_compacts : (s.setDom d x).compacts = s.compacts := rfl
@[simp] theorem State.setDom_injq : (s.setDom d x).injq = s.injq := rfl
@[simp] theorem State.setDom_flits : (s.setDom d x).flits = s.flits := rfl
@[simp] theorem State.setDom_fk : (s.setDom d x).fk = s.fk := rfl
@[simp] theorem State.setDom_cycled : (s.setDom d x).cycled = s.cycled := rfl
@[simp] theorem State.setDom_downLinks : (s.setDom d x).downLinks = s.downLinks := rfl
@[simp] theorem State.setDom_slots : (s.setDom d x).slots = s.slots := rfl
@[simp] theorem State.setDom_sends : (s.setDom d x).sends = s.sends := rfl
@[simp] theorem State.setDom_rarrs : (s.setDom d x).rarrs = s.rarrs := rfl
@[simp] theorem State.setDom_pbdecs : (s.setDom d x).pbdecs = s.pbdecs := rfl
@[simp] theorem State.setDom_parked : (s.setDom d x).parked = s.parked := rfl
@[simp] theorem State.setDom_barWrites : (s.setDom d x).barWrites = s.barWrites := rfl
@[simp] theorem State.setDom_barReads : (s.setDom d x).barReads = s.barReads := rfl
@[simp] theorem State.setDom_lockWaits : (s.setDom d x).lockWaits = s.lockWaits := rfl
@[simp] theorem State.setDom_strays : (s.setDom d x).strays = s.strays := rfl
@[simp] theorem State.setDom_gangJoins : (s.setDom d x).gangJoins = s.gangJoins := rfl
@[simp] theorem State.setDom_uetOut : (s.setDom d x).uetOut = s.uetOut := rfl
@[simp] theorem State.setDom_uetSeen : (s.setDom d x).uetSeen = s.uetSeen := rfl
@[simp] theorem State.setDom_inbox : (s.setDom d x).inbox = s.inbox := rfl
@[simp] theorem State.setDom_ended : (s.setDom d x).ended = s.ended := rfl
@[simp] theorem State.setDom_signFails : (s.setDom d x).signFails = s.signFails := rfl
@[simp] theorem State.setDom_nextId : (s.setDom d x).nextId = s.nextId := rfl
@[simp] theorem State.setDom_mboxes : (s.setDom d x).mboxes = s.mboxes := rfl
@[simp] theorem State.setDom_msixHost : (s.setDom d x).msixHost = s.msixHost := rfl
@[simp] theorem State.setDom_msixPeer : (s.setDom d x).msixPeer = s.msixPeer := rfl
@[simp] theorem State.setDom_bootaddr : (s.setDom d x).bootaddr = s.bootaddr := rfl
@[simp] theorem State.setDom_bootstat : (s.setDom d x).bootstat = s.bootstat := rfl
@[simp] theorem State.setDom_measure : (s.setDom d x).measure = s.measure := rfl
@[simp] theorem State.setDom_measured : (s.setDom d x).measured = s.measured := rfl
@[simp] theorem State.setDom_version : (s.setDom d x).version = s.version := rfl
@[simp] theorem State.setDom_pklimit : (s.setDom d x).pklimit = s.pklimit := rfl
@[simp] theorem State.setDom_capping : (s.setDom d x).capping = s.capping := rfl
@[simp] theorem State.setDom_sensors : (s.setDom d x).sensors = s.sensors := rfl
@[simp] theorem State.setDom_ioErrors : (s.setDom d x).ioErrors = s.ioErrors := rfl
@[simp] theorem State.setDom_notices : (s.setDom d x).notices = s.notices := rfl
@[simp] theorem State.setDom_outputs : (s.setDom d x).outputs = s.outputs := rfl
@[simp] theorem State.setDom_agenda : (s.setDom d x).agenda = s.agenda := rfl
@[simp] theorem State.setDom_cur : (s.setDom d x).cur = s.cur := rfl
@[simp] theorem State.setDom_cx : (s.setDom d x).cx = s.cx := rfl
@[simp] theorem State.setDom_ckRank : (s.setDom d x).ckRank = s.ckRank := rfl
@[simp] theorem State.setDom_fresh : (s.setDom d x).fresh = s.fresh := rfl

end

section

variable {s : State} {f : Nat} {x : Frame}

@[simp] theorem State.setFrame_part : (s.setFrame f x).part = s.part := rfl
@[simp] theorem State.setFrame_present : (s.setFrame f x).present = s.present := rfl
@[simp] theorem State.setFrame_rollback : (s.setFrame f x).rollback = s.rollback := rfl
@[simp] theorem State.setFrame_cycle : (s.setFrame f x).cycle = s.cycle := rfl
@[simp] theorem State.setFrame_devset : (s.setFrame f x).devset = s.devset := rfl
@[simp] theorem State.setFrame_devnum : (s.setFrame f x).devnum = s.devnum := rfl
@[simp] theorem State.setFrame_fabthr : (s.setFrame f x).fabthr = s.fabthr := rfl
@[simp] theorem State.setFrame_cohctl : (s.setFrame f x).cohctl = s.cohctl := rfl
@[simp] theorem State.setFrame_delBound : (s.setFrame f x).delBound = s.delBound := rfl
@[simp] theorem State.setFrame_delDrop : (s.setFrame f x).delDrop = s.delDrop := rfl
@[simp] theorem State.setFrame_slfold : (s.setFrame f x).slfold = s.slfold := rfl
@[simp] theorem State.setFrame_foldstat : (s.setFrame f x).foldstat = s.foldstat := rfl
@[simp] theorem State.setFrame_foldTo : (s.setFrame f x).foldTo = s.foldTo := rfl
@[simp] theorem State.setFrame_uetcfg : (s.setFrame f x).uetcfg = s.uetcfg := rfl
@[simp] theorem State.setFrame_uetrto : (s.setFrame f x).uetrto = s.uetrto := rfl
@[simp] theorem State.setFrame_uetretry : (s.setFrame f x).uetretry = s.uetretry := rfl
@[simp] theorem State.setFrame_uetmap : (s.setFrame f x).uetmap = s.uetmap := rfl
@[simp] theorem State.setFrame_uetTable : (s.setFrame f x).uetTable = s.uetTable := rfl
@[simp] theorem State.setFrame_mem : (s.setFrame f x).mem = s.mem := rfl
@[simp] theorem State.setFrame_poison : (s.setFrame f x).poison = s.poison := rfl
@[simp] theorem State.setFrame_lost : (s.setFrame f x).lost = s.lost := rfl
@[simp] theorem State.setFrame_recover : (s.setFrame f x).recover = s.recover := rfl
@[simp] theorem State.setFrame_dir : (s.setFrame f x).dir = s.dir := rfl
@[simp] theorem State.setFrame_tlb : (s.setFrame f x).tlb = s.tlb := rfl
@[simp] theorem State.setFrame_wit : (s.setFrame f x).wit = s.wit := rfl
@[simp] theorem State.setFrame_lineHist : (s.setFrame f x).lineHist = s.lineHist := rfl
@[simp] theorem State.setFrame_shadow : (s.setFrame f x).shadow = s.shadow := rfl
@[simp] theorem State.setFrame_shadowTold : (s.setFrame f x).shadowTold = s.shadowTold := rfl
@[simp] theorem State.setFrame_rels : (s.setFrame f x).rels = s.rels := rfl
@[simp] theorem State.setFrame_parties : (s.setFrame f x).parties = s.parties := rfl
@[simp] theorem State.setFrame_tasks : (s.setFrame f x).tasks = s.tasks := rfl
@[simp] theorem State.setFrame_frames : (s.setFrame f x).frames = s.frames.set f x := rfl
@[simp] theorem State.setFrame_doms : (s.setFrame f x).doms = s.doms := rfl
@[simp] theorem State.setFrame_tiles : (s.setFrame f x).tiles = s.tiles := rfl
@[simp] theorem State.setFrame_cluss : (s.setFrame f x).cluss = s.cluss := rfl
@[simp] theorem State.setFrame_dies : (s.setFrame f x).dies = s.dies := rfl
@[simp] theorem State.setFrame_gangs : (s.setFrame f x).gangs = s.gangs := rfl
@[simp] theorem State.setFrame_gangSeq : (s.setFrame f x).gangSeq = s.gangSeq := rfl
@[simp] theorem State.setFrame_compacts : (s.setFrame f x).compacts = s.compacts := rfl
@[simp] theorem State.setFrame_injq : (s.setFrame f x).injq = s.injq := rfl
@[simp] theorem State.setFrame_flits : (s.setFrame f x).flits = s.flits := rfl
@[simp] theorem State.setFrame_fk : (s.setFrame f x).fk = s.fk := rfl
@[simp] theorem State.setFrame_cycled : (s.setFrame f x).cycled = s.cycled := rfl
@[simp] theorem State.setFrame_downLinks : (s.setFrame f x).downLinks = s.downLinks := rfl
@[simp] theorem State.setFrame_slots : (s.setFrame f x).slots = s.slots := rfl
@[simp] theorem State.setFrame_sends : (s.setFrame f x).sends = s.sends := rfl
@[simp] theorem State.setFrame_rarrs : (s.setFrame f x).rarrs = s.rarrs := rfl
@[simp] theorem State.setFrame_pbdecs : (s.setFrame f x).pbdecs = s.pbdecs := rfl
@[simp] theorem State.setFrame_parked : (s.setFrame f x).parked = s.parked := rfl
@[simp] theorem State.setFrame_barWrites : (s.setFrame f x).barWrites = s.barWrites := rfl
@[simp] theorem State.setFrame_barReads : (s.setFrame f x).barReads = s.barReads := rfl
@[simp] theorem State.setFrame_lockWaits : (s.setFrame f x).lockWaits = s.lockWaits := rfl
@[simp] theorem State.setFrame_strays : (s.setFrame f x).strays = s.strays := rfl
@[simp] theorem State.setFrame_gangJoins : (s.setFrame f x).gangJoins = s.gangJoins := rfl
@[simp] theorem State.setFrame_uetOut : (s.setFrame f x).uetOut = s.uetOut := rfl
@[simp] theorem State.setFrame_uetSeen : (s.setFrame f x).uetSeen = s.uetSeen := rfl
@[simp] theorem State.setFrame_inbox : (s.setFrame f x).inbox = s.inbox := rfl
@[simp] theorem State.setFrame_ended : (s.setFrame f x).ended = s.ended := rfl
@[simp] theorem State.setFrame_signFails : (s.setFrame f x).signFails = s.signFails := rfl
@[simp] theorem State.setFrame_nextId : (s.setFrame f x).nextId = s.nextId := rfl
@[simp] theorem State.setFrame_mboxes : (s.setFrame f x).mboxes = s.mboxes := rfl
@[simp] theorem State.setFrame_msixHost : (s.setFrame f x).msixHost = s.msixHost := rfl
@[simp] theorem State.setFrame_msixPeer : (s.setFrame f x).msixPeer = s.msixPeer := rfl
@[simp] theorem State.setFrame_bootaddr : (s.setFrame f x).bootaddr = s.bootaddr := rfl
@[simp] theorem State.setFrame_bootstat : (s.setFrame f x).bootstat = s.bootstat := rfl
@[simp] theorem State.setFrame_measure : (s.setFrame f x).measure = s.measure := rfl
@[simp] theorem State.setFrame_measured : (s.setFrame f x).measured = s.measured := rfl
@[simp] theorem State.setFrame_version : (s.setFrame f x).version = s.version := rfl
@[simp] theorem State.setFrame_pklimit : (s.setFrame f x).pklimit = s.pklimit := rfl
@[simp] theorem State.setFrame_capping : (s.setFrame f x).capping = s.capping := rfl
@[simp] theorem State.setFrame_sensors : (s.setFrame f x).sensors = s.sensors := rfl
@[simp] theorem State.setFrame_ioErrors : (s.setFrame f x).ioErrors = s.ioErrors := rfl
@[simp] theorem State.setFrame_notices : (s.setFrame f x).notices = s.notices := rfl
@[simp] theorem State.setFrame_outputs : (s.setFrame f x).outputs = s.outputs := rfl
@[simp] theorem State.setFrame_agenda : (s.setFrame f x).agenda = s.agenda := rfl
@[simp] theorem State.setFrame_cur : (s.setFrame f x).cur = s.cur := rfl
@[simp] theorem State.setFrame_cx : (s.setFrame f x).cx = s.cx := rfl
@[simp] theorem State.setFrame_ckRank : (s.setFrame f x).ckRank = s.ckRank := rfl
@[simp] theorem State.setFrame_fresh : (s.setFrame f x).fresh = s.fresh := rfl

end

section

variable {s : State} {g : Nat} {x : Gang}

@[simp] theorem State.setGang_part : (s.setGang g x).part = s.part := rfl
@[simp] theorem State.setGang_present : (s.setGang g x).present = s.present := rfl
@[simp] theorem State.setGang_rollback : (s.setGang g x).rollback = s.rollback := rfl
@[simp] theorem State.setGang_cycle : (s.setGang g x).cycle = s.cycle := rfl
@[simp] theorem State.setGang_devset : (s.setGang g x).devset = s.devset := rfl
@[simp] theorem State.setGang_devnum : (s.setGang g x).devnum = s.devnum := rfl
@[simp] theorem State.setGang_fabthr : (s.setGang g x).fabthr = s.fabthr := rfl
@[simp] theorem State.setGang_cohctl : (s.setGang g x).cohctl = s.cohctl := rfl
@[simp] theorem State.setGang_delBound : (s.setGang g x).delBound = s.delBound := rfl
@[simp] theorem State.setGang_delDrop : (s.setGang g x).delDrop = s.delDrop := rfl
@[simp] theorem State.setGang_slfold : (s.setGang g x).slfold = s.slfold := rfl
@[simp] theorem State.setGang_foldstat : (s.setGang g x).foldstat = s.foldstat := rfl
@[simp] theorem State.setGang_foldTo : (s.setGang g x).foldTo = s.foldTo := rfl
@[simp] theorem State.setGang_uetcfg : (s.setGang g x).uetcfg = s.uetcfg := rfl
@[simp] theorem State.setGang_uetrto : (s.setGang g x).uetrto = s.uetrto := rfl
@[simp] theorem State.setGang_uetretry : (s.setGang g x).uetretry = s.uetretry := rfl
@[simp] theorem State.setGang_uetmap : (s.setGang g x).uetmap = s.uetmap := rfl
@[simp] theorem State.setGang_uetTable : (s.setGang g x).uetTable = s.uetTable := rfl
@[simp] theorem State.setGang_mem : (s.setGang g x).mem = s.mem := rfl
@[simp] theorem State.setGang_poison : (s.setGang g x).poison = s.poison := rfl
@[simp] theorem State.setGang_lost : (s.setGang g x).lost = s.lost := rfl
@[simp] theorem State.setGang_recover : (s.setGang g x).recover = s.recover := rfl
@[simp] theorem State.setGang_dir : (s.setGang g x).dir = s.dir := rfl
@[simp] theorem State.setGang_tlb : (s.setGang g x).tlb = s.tlb := rfl
@[simp] theorem State.setGang_wit : (s.setGang g x).wit = s.wit := rfl
@[simp] theorem State.setGang_lineHist : (s.setGang g x).lineHist = s.lineHist := rfl
@[simp] theorem State.setGang_shadow : (s.setGang g x).shadow = s.shadow := rfl
@[simp] theorem State.setGang_shadowTold : (s.setGang g x).shadowTold = s.shadowTold := rfl
@[simp] theorem State.setGang_rels : (s.setGang g x).rels = s.rels := rfl
@[simp] theorem State.setGang_parties : (s.setGang g x).parties = s.parties := rfl
@[simp] theorem State.setGang_tasks : (s.setGang g x).tasks = s.tasks := rfl
@[simp] theorem State.setGang_frames : (s.setGang g x).frames = s.frames := rfl
@[simp] theorem State.setGang_doms : (s.setGang g x).doms = s.doms := rfl
@[simp] theorem State.setGang_tiles : (s.setGang g x).tiles = s.tiles := rfl
@[simp] theorem State.setGang_cluss : (s.setGang g x).cluss = s.cluss := rfl
@[simp] theorem State.setGang_dies : (s.setGang g x).dies = s.dies := rfl
@[simp] theorem State.setGang_gangs : (s.setGang g x).gangs = s.gangs.set g x := rfl
@[simp] theorem State.setGang_gangSeq : (s.setGang g x).gangSeq = s.gangSeq := rfl
@[simp] theorem State.setGang_compacts : (s.setGang g x).compacts = s.compacts := rfl
@[simp] theorem State.setGang_injq : (s.setGang g x).injq = s.injq := rfl
@[simp] theorem State.setGang_flits : (s.setGang g x).flits = s.flits := rfl
@[simp] theorem State.setGang_fk : (s.setGang g x).fk = s.fk := rfl
@[simp] theorem State.setGang_cycled : (s.setGang g x).cycled = s.cycled := rfl
@[simp] theorem State.setGang_downLinks : (s.setGang g x).downLinks = s.downLinks := rfl
@[simp] theorem State.setGang_slots : (s.setGang g x).slots = s.slots := rfl
@[simp] theorem State.setGang_sends : (s.setGang g x).sends = s.sends := rfl
@[simp] theorem State.setGang_rarrs : (s.setGang g x).rarrs = s.rarrs := rfl
@[simp] theorem State.setGang_pbdecs : (s.setGang g x).pbdecs = s.pbdecs := rfl
@[simp] theorem State.setGang_parked : (s.setGang g x).parked = s.parked := rfl
@[simp] theorem State.setGang_barWrites : (s.setGang g x).barWrites = s.barWrites := rfl
@[simp] theorem State.setGang_barReads : (s.setGang g x).barReads = s.barReads := rfl
@[simp] theorem State.setGang_lockWaits : (s.setGang g x).lockWaits = s.lockWaits := rfl
@[simp] theorem State.setGang_strays : (s.setGang g x).strays = s.strays := rfl
@[simp] theorem State.setGang_gangJoins : (s.setGang g x).gangJoins = s.gangJoins := rfl
@[simp] theorem State.setGang_uetOut : (s.setGang g x).uetOut = s.uetOut := rfl
@[simp] theorem State.setGang_uetSeen : (s.setGang g x).uetSeen = s.uetSeen := rfl
@[simp] theorem State.setGang_inbox : (s.setGang g x).inbox = s.inbox := rfl
@[simp] theorem State.setGang_ended : (s.setGang g x).ended = s.ended := rfl
@[simp] theorem State.setGang_signFails : (s.setGang g x).signFails = s.signFails := rfl
@[simp] theorem State.setGang_nextId : (s.setGang g x).nextId = s.nextId := rfl
@[simp] theorem State.setGang_mboxes : (s.setGang g x).mboxes = s.mboxes := rfl
@[simp] theorem State.setGang_msixHost : (s.setGang g x).msixHost = s.msixHost := rfl
@[simp] theorem State.setGang_msixPeer : (s.setGang g x).msixPeer = s.msixPeer := rfl
@[simp] theorem State.setGang_bootaddr : (s.setGang g x).bootaddr = s.bootaddr := rfl
@[simp] theorem State.setGang_bootstat : (s.setGang g x).bootstat = s.bootstat := rfl
@[simp] theorem State.setGang_measure : (s.setGang g x).measure = s.measure := rfl
@[simp] theorem State.setGang_measured : (s.setGang g x).measured = s.measured := rfl
@[simp] theorem State.setGang_version : (s.setGang g x).version = s.version := rfl
@[simp] theorem State.setGang_pklimit : (s.setGang g x).pklimit = s.pklimit := rfl
@[simp] theorem State.setGang_capping : (s.setGang g x).capping = s.capping := rfl
@[simp] theorem State.setGang_sensors : (s.setGang g x).sensors = s.sensors := rfl
@[simp] theorem State.setGang_ioErrors : (s.setGang g x).ioErrors = s.ioErrors := rfl
@[simp] theorem State.setGang_notices : (s.setGang g x).notices = s.notices := rfl
@[simp] theorem State.setGang_outputs : (s.setGang g x).outputs = s.outputs := rfl
@[simp] theorem State.setGang_agenda : (s.setGang g x).agenda = s.agenda := rfl
@[simp] theorem State.setGang_cur : (s.setGang g x).cur = s.cur := rfl
@[simp] theorem State.setGang_cx : (s.setGang g x).cx = s.cx := rfl
@[simp] theorem State.setGang_ckRank : (s.setGang g x).ckRank = s.ckRank := rfl
@[simp] theorem State.setGang_fresh : (s.setGang g x).fresh = s.fresh := rfl

end

section

variable {s : State} {l : Nat} {e : DirEnt}

@[simp] theorem State.setDir_part : (s.setDir l e).part = s.part := rfl
@[simp] theorem State.setDir_present : (s.setDir l e).present = s.present := rfl
@[simp] theorem State.setDir_rollback : (s.setDir l e).rollback = s.rollback := rfl
@[simp] theorem State.setDir_cycle : (s.setDir l e).cycle = s.cycle := rfl
@[simp] theorem State.setDir_devset : (s.setDir l e).devset = s.devset := rfl
@[simp] theorem State.setDir_devnum : (s.setDir l e).devnum = s.devnum := rfl
@[simp] theorem State.setDir_fabthr : (s.setDir l e).fabthr = s.fabthr := rfl
@[simp] theorem State.setDir_cohctl : (s.setDir l e).cohctl = s.cohctl := rfl
@[simp] theorem State.setDir_delBound : (s.setDir l e).delBound = s.delBound := rfl
@[simp] theorem State.setDir_delDrop : (s.setDir l e).delDrop = s.delDrop := rfl
@[simp] theorem State.setDir_slfold : (s.setDir l e).slfold = s.slfold := rfl
@[simp] theorem State.setDir_foldstat : (s.setDir l e).foldstat = s.foldstat := rfl
@[simp] theorem State.setDir_foldTo : (s.setDir l e).foldTo = s.foldTo := rfl
@[simp] theorem State.setDir_uetcfg : (s.setDir l e).uetcfg = s.uetcfg := rfl
@[simp] theorem State.setDir_uetrto : (s.setDir l e).uetrto = s.uetrto := rfl
@[simp] theorem State.setDir_uetretry : (s.setDir l e).uetretry = s.uetretry := rfl
@[simp] theorem State.setDir_uetmap : (s.setDir l e).uetmap = s.uetmap := rfl
@[simp] theorem State.setDir_uetTable : (s.setDir l e).uetTable = s.uetTable := rfl
@[simp] theorem State.setDir_mem : (s.setDir l e).mem = s.mem := rfl
@[simp] theorem State.setDir_poison : (s.setDir l e).poison = s.poison := rfl
@[simp] theorem State.setDir_lost : (s.setDir l e).lost = s.lost := rfl
@[simp] theorem State.setDir_recover : (s.setDir l e).recover = s.recover := rfl
@[simp] theorem State.setDir_dir : (s.setDir l e).dir = s.dir.set l e := rfl
@[simp] theorem State.setDir_tlb : (s.setDir l e).tlb = s.tlb := rfl
@[simp] theorem State.setDir_wit : (s.setDir l e).wit = s.wit := rfl
@[simp] theorem State.setDir_lineHist : (s.setDir l e).lineHist = s.lineHist := rfl
@[simp] theorem State.setDir_shadow : (s.setDir l e).shadow = s.shadow := rfl
@[simp] theorem State.setDir_shadowTold : (s.setDir l e).shadowTold = s.shadowTold := rfl
@[simp] theorem State.setDir_rels : (s.setDir l e).rels = s.rels := rfl
@[simp] theorem State.setDir_parties : (s.setDir l e).parties = s.parties := rfl
@[simp] theorem State.setDir_tasks : (s.setDir l e).tasks = s.tasks := rfl
@[simp] theorem State.setDir_frames : (s.setDir l e).frames = s.frames := rfl
@[simp] theorem State.setDir_doms : (s.setDir l e).doms = s.doms := rfl
@[simp] theorem State.setDir_tiles : (s.setDir l e).tiles = s.tiles := rfl
@[simp] theorem State.setDir_cluss : (s.setDir l e).cluss = s.cluss := rfl
@[simp] theorem State.setDir_dies : (s.setDir l e).dies = s.dies := rfl
@[simp] theorem State.setDir_gangs : (s.setDir l e).gangs = s.gangs := rfl
@[simp] theorem State.setDir_gangSeq : (s.setDir l e).gangSeq = s.gangSeq := rfl
@[simp] theorem State.setDir_compacts : (s.setDir l e).compacts = s.compacts := rfl
@[simp] theorem State.setDir_injq : (s.setDir l e).injq = s.injq := rfl
@[simp] theorem State.setDir_flits : (s.setDir l e).flits = s.flits := rfl
@[simp] theorem State.setDir_fk : (s.setDir l e).fk = s.fk := rfl
@[simp] theorem State.setDir_cycled : (s.setDir l e).cycled = s.cycled := rfl
@[simp] theorem State.setDir_downLinks : (s.setDir l e).downLinks = s.downLinks := rfl
@[simp] theorem State.setDir_slots : (s.setDir l e).slots = s.slots := rfl
@[simp] theorem State.setDir_sends : (s.setDir l e).sends = s.sends := rfl
@[simp] theorem State.setDir_rarrs : (s.setDir l e).rarrs = s.rarrs := rfl
@[simp] theorem State.setDir_pbdecs : (s.setDir l e).pbdecs = s.pbdecs := rfl
@[simp] theorem State.setDir_parked : (s.setDir l e).parked = s.parked := rfl
@[simp] theorem State.setDir_barWrites : (s.setDir l e).barWrites = s.barWrites := rfl
@[simp] theorem State.setDir_barReads : (s.setDir l e).barReads = s.barReads := rfl
@[simp] theorem State.setDir_lockWaits : (s.setDir l e).lockWaits = s.lockWaits := rfl
@[simp] theorem State.setDir_strays : (s.setDir l e).strays = s.strays := rfl
@[simp] theorem State.setDir_gangJoins : (s.setDir l e).gangJoins = s.gangJoins := rfl
@[simp] theorem State.setDir_uetOut : (s.setDir l e).uetOut = s.uetOut := rfl
@[simp] theorem State.setDir_uetSeen : (s.setDir l e).uetSeen = s.uetSeen := rfl
@[simp] theorem State.setDir_inbox : (s.setDir l e).inbox = s.inbox := rfl
@[simp] theorem State.setDir_ended : (s.setDir l e).ended = s.ended := rfl
@[simp] theorem State.setDir_signFails : (s.setDir l e).signFails = s.signFails := rfl
@[simp] theorem State.setDir_nextId : (s.setDir l e).nextId = s.nextId := rfl
@[simp] theorem State.setDir_mboxes : (s.setDir l e).mboxes = s.mboxes := rfl
@[simp] theorem State.setDir_msixHost : (s.setDir l e).msixHost = s.msixHost := rfl
@[simp] theorem State.setDir_msixPeer : (s.setDir l e).msixPeer = s.msixPeer := rfl
@[simp] theorem State.setDir_bootaddr : (s.setDir l e).bootaddr = s.bootaddr := rfl
@[simp] theorem State.setDir_bootstat : (s.setDir l e).bootstat = s.bootstat := rfl
@[simp] theorem State.setDir_measure : (s.setDir l e).measure = s.measure := rfl
@[simp] theorem State.setDir_measured : (s.setDir l e).measured = s.measured := rfl
@[simp] theorem State.setDir_version : (s.setDir l e).version = s.version := rfl
@[simp] theorem State.setDir_pklimit : (s.setDir l e).pklimit = s.pklimit := rfl
@[simp] theorem State.setDir_capping : (s.setDir l e).capping = s.capping := rfl
@[simp] theorem State.setDir_sensors : (s.setDir l e).sensors = s.sensors := rfl
@[simp] theorem State.setDir_ioErrors : (s.setDir l e).ioErrors = s.ioErrors := rfl
@[simp] theorem State.setDir_notices : (s.setDir l e).notices = s.notices := rfl
@[simp] theorem State.setDir_outputs : (s.setDir l e).outputs = s.outputs := rfl
@[simp] theorem State.setDir_agenda : (s.setDir l e).agenda = s.agenda := rfl
@[simp] theorem State.setDir_cur : (s.setDir l e).cur = s.cur := rfl
@[simp] theorem State.setDir_cx : (s.setDir l e).cx = s.cx := rfl
@[simp] theorem State.setDir_ckRank : (s.setDir l e).ckRank = s.ckRank := rfl
@[simp] theorem State.setDir_fresh : (s.setDir l e).fresh = s.fresh := rfl

end

section

variable {s : State} {m : Mem}

@[simp] theorem State.setMem_part : (s.setMem m).part = s.part := rfl
@[simp] theorem State.setMem_present : (s.setMem m).present = s.present := rfl
@[simp] theorem State.setMem_rollback : (s.setMem m).rollback = s.rollback := rfl
@[simp] theorem State.setMem_cycle : (s.setMem m).cycle = s.cycle := rfl
@[simp] theorem State.setMem_devset : (s.setMem m).devset = s.devset := rfl
@[simp] theorem State.setMem_devnum : (s.setMem m).devnum = s.devnum := rfl
@[simp] theorem State.setMem_fabthr : (s.setMem m).fabthr = s.fabthr := rfl
@[simp] theorem State.setMem_cohctl : (s.setMem m).cohctl = s.cohctl := rfl
@[simp] theorem State.setMem_delBound : (s.setMem m).delBound = s.delBound := rfl
@[simp] theorem State.setMem_delDrop : (s.setMem m).delDrop = s.delDrop := rfl
@[simp] theorem State.setMem_slfold : (s.setMem m).slfold = s.slfold := rfl
@[simp] theorem State.setMem_foldstat : (s.setMem m).foldstat = s.foldstat := rfl
@[simp] theorem State.setMem_foldTo : (s.setMem m).foldTo = s.foldTo := rfl
@[simp] theorem State.setMem_uetcfg : (s.setMem m).uetcfg = s.uetcfg := rfl
@[simp] theorem State.setMem_uetrto : (s.setMem m).uetrto = s.uetrto := rfl
@[simp] theorem State.setMem_uetretry : (s.setMem m).uetretry = s.uetretry := rfl
@[simp] theorem State.setMem_uetmap : (s.setMem m).uetmap = s.uetmap := rfl
@[simp] theorem State.setMem_uetTable : (s.setMem m).uetTable = s.uetTable := rfl
@[simp] theorem State.setMem_mem : (s.setMem m).mem = m := rfl
@[simp] theorem State.setMem_poison : (s.setMem m).poison = s.poison := rfl
@[simp] theorem State.setMem_lost : (s.setMem m).lost = s.lost := rfl
@[simp] theorem State.setMem_recover : (s.setMem m).recover = s.recover := rfl
@[simp] theorem State.setMem_dir : (s.setMem m).dir = s.dir := rfl
@[simp] theorem State.setMem_tlb : (s.setMem m).tlb = s.tlb := rfl
@[simp] theorem State.setMem_wit : (s.setMem m).wit = s.wit := rfl
@[simp] theorem State.setMem_lineHist : (s.setMem m).lineHist = s.lineHist := rfl
@[simp] theorem State.setMem_shadow : (s.setMem m).shadow = s.shadow := rfl
@[simp] theorem State.setMem_shadowTold : (s.setMem m).shadowTold = s.shadowTold := rfl
@[simp] theorem State.setMem_rels : (s.setMem m).rels = s.rels := rfl
@[simp] theorem State.setMem_parties : (s.setMem m).parties = s.parties := rfl
@[simp] theorem State.setMem_tasks : (s.setMem m).tasks = s.tasks := rfl
@[simp] theorem State.setMem_frames : (s.setMem m).frames = s.frames := rfl
@[simp] theorem State.setMem_doms : (s.setMem m).doms = s.doms := rfl
@[simp] theorem State.setMem_tiles : (s.setMem m).tiles = s.tiles := rfl
@[simp] theorem State.setMem_cluss : (s.setMem m).cluss = s.cluss := rfl
@[simp] theorem State.setMem_dies : (s.setMem m).dies = s.dies := rfl
@[simp] theorem State.setMem_gangs : (s.setMem m).gangs = s.gangs := rfl
@[simp] theorem State.setMem_gangSeq : (s.setMem m).gangSeq = s.gangSeq := rfl
@[simp] theorem State.setMem_compacts : (s.setMem m).compacts = s.compacts := rfl
@[simp] theorem State.setMem_injq : (s.setMem m).injq = s.injq := rfl
@[simp] theorem State.setMem_flits : (s.setMem m).flits = s.flits := rfl
@[simp] theorem State.setMem_fk : (s.setMem m).fk = s.fk := rfl
@[simp] theorem State.setMem_cycled : (s.setMem m).cycled = s.cycled := rfl
@[simp] theorem State.setMem_downLinks : (s.setMem m).downLinks = s.downLinks := rfl
@[simp] theorem State.setMem_slots : (s.setMem m).slots = s.slots := rfl
@[simp] theorem State.setMem_sends : (s.setMem m).sends = s.sends := rfl
@[simp] theorem State.setMem_rarrs : (s.setMem m).rarrs = s.rarrs := rfl
@[simp] theorem State.setMem_pbdecs : (s.setMem m).pbdecs = s.pbdecs := rfl
@[simp] theorem State.setMem_parked : (s.setMem m).parked = s.parked := rfl
@[simp] theorem State.setMem_barWrites : (s.setMem m).barWrites = s.barWrites := rfl
@[simp] theorem State.setMem_barReads : (s.setMem m).barReads = s.barReads := rfl
@[simp] theorem State.setMem_lockWaits : (s.setMem m).lockWaits = s.lockWaits := rfl
@[simp] theorem State.setMem_strays : (s.setMem m).strays = s.strays := rfl
@[simp] theorem State.setMem_gangJoins : (s.setMem m).gangJoins = s.gangJoins := rfl
@[simp] theorem State.setMem_uetOut : (s.setMem m).uetOut = s.uetOut := rfl
@[simp] theorem State.setMem_uetSeen : (s.setMem m).uetSeen = s.uetSeen := rfl
@[simp] theorem State.setMem_inbox : (s.setMem m).inbox = s.inbox := rfl
@[simp] theorem State.setMem_ended : (s.setMem m).ended = s.ended := rfl
@[simp] theorem State.setMem_signFails : (s.setMem m).signFails = s.signFails := rfl
@[simp] theorem State.setMem_nextId : (s.setMem m).nextId = s.nextId := rfl
@[simp] theorem State.setMem_mboxes : (s.setMem m).mboxes = s.mboxes := rfl
@[simp] theorem State.setMem_msixHost : (s.setMem m).msixHost = s.msixHost := rfl
@[simp] theorem State.setMem_msixPeer : (s.setMem m).msixPeer = s.msixPeer := rfl
@[simp] theorem State.setMem_bootaddr : (s.setMem m).bootaddr = s.bootaddr := rfl
@[simp] theorem State.setMem_bootstat : (s.setMem m).bootstat = s.bootstat := rfl
@[simp] theorem State.setMem_measure : (s.setMem m).measure = s.measure := rfl
@[simp] theorem State.setMem_measured : (s.setMem m).measured = s.measured := rfl
@[simp] theorem State.setMem_version : (s.setMem m).version = s.version := rfl
@[simp] theorem State.setMem_pklimit : (s.setMem m).pklimit = s.pklimit := rfl
@[simp] theorem State.setMem_capping : (s.setMem m).capping = s.capping := rfl
@[simp] theorem State.setMem_sensors : (s.setMem m).sensors = s.sensors := rfl
@[simp] theorem State.setMem_ioErrors : (s.setMem m).ioErrors = s.ioErrors := rfl
@[simp] theorem State.setMem_notices : (s.setMem m).notices = s.notices := rfl
@[simp] theorem State.setMem_outputs : (s.setMem m).outputs = s.outputs := rfl
@[simp] theorem State.setMem_agenda : (s.setMem m).agenda = s.agenda := rfl
@[simp] theorem State.setMem_cur : (s.setMem m).cur = s.cur := rfl
@[simp] theorem State.setMem_cx : (s.setMem m).cx = s.cx := rfl
@[simp] theorem State.setMem_ckRank : (s.setMem m).ckRank = s.ckRank := rfl
@[simp] theorem State.setMem_fresh : (s.setMem m).fresh = s.fresh := rfl

end

section

variable {s : State} {n : Notice}

@[simp] theorem State.tell_part : (s.tell n).part = s.part := rfl
@[simp] theorem State.tell_present : (s.tell n).present = s.present := rfl
@[simp] theorem State.tell_rollback : (s.tell n).rollback = s.rollback := rfl
@[simp] theorem State.tell_cycle : (s.tell n).cycle = s.cycle := rfl
@[simp] theorem State.tell_devset : (s.tell n).devset = s.devset := rfl
@[simp] theorem State.tell_devnum : (s.tell n).devnum = s.devnum := rfl
@[simp] theorem State.tell_fabthr : (s.tell n).fabthr = s.fabthr := rfl
@[simp] theorem State.tell_cohctl : (s.tell n).cohctl = s.cohctl := rfl
@[simp] theorem State.tell_delBound : (s.tell n).delBound = s.delBound := rfl
@[simp] theorem State.tell_delDrop : (s.tell n).delDrop = s.delDrop := rfl
@[simp] theorem State.tell_slfold : (s.tell n).slfold = s.slfold := rfl
@[simp] theorem State.tell_foldstat : (s.tell n).foldstat = s.foldstat := rfl
@[simp] theorem State.tell_foldTo : (s.tell n).foldTo = s.foldTo := rfl
@[simp] theorem State.tell_uetcfg : (s.tell n).uetcfg = s.uetcfg := rfl
@[simp] theorem State.tell_uetrto : (s.tell n).uetrto = s.uetrto := rfl
@[simp] theorem State.tell_uetretry : (s.tell n).uetretry = s.uetretry := rfl
@[simp] theorem State.tell_uetmap : (s.tell n).uetmap = s.uetmap := rfl
@[simp] theorem State.tell_uetTable : (s.tell n).uetTable = s.uetTable := rfl
@[simp] theorem State.tell_mem : (s.tell n).mem = s.mem := rfl
@[simp] theorem State.tell_poison : (s.tell n).poison = s.poison := rfl
@[simp] theorem State.tell_lost : (s.tell n).lost = s.lost := rfl
@[simp] theorem State.tell_recover : (s.tell n).recover = s.recover := rfl
@[simp] theorem State.tell_dir : (s.tell n).dir = s.dir := rfl
@[simp] theorem State.tell_tlb : (s.tell n).tlb = s.tlb := rfl
@[simp] theorem State.tell_wit : (s.tell n).wit = s.wit := rfl
@[simp] theorem State.tell_lineHist : (s.tell n).lineHist = s.lineHist := rfl
@[simp] theorem State.tell_shadow : (s.tell n).shadow = s.shadow := rfl
@[simp] theorem State.tell_shadowTold : (s.tell n).shadowTold = s.shadowTold := rfl
@[simp] theorem State.tell_rels : (s.tell n).rels = s.rels := rfl
@[simp] theorem State.tell_parties : (s.tell n).parties = s.parties := rfl
@[simp] theorem State.tell_tasks : (s.tell n).tasks = s.tasks := rfl
@[simp] theorem State.tell_frames : (s.tell n).frames = s.frames := rfl
@[simp] theorem State.tell_doms : (s.tell n).doms = s.doms := rfl
@[simp] theorem State.tell_tiles : (s.tell n).tiles = s.tiles := rfl
@[simp] theorem State.tell_cluss : (s.tell n).cluss = s.cluss := rfl
@[simp] theorem State.tell_dies : (s.tell n).dies = s.dies := rfl
@[simp] theorem State.tell_gangs : (s.tell n).gangs = s.gangs := rfl
@[simp] theorem State.tell_gangSeq : (s.tell n).gangSeq = s.gangSeq := rfl
@[simp] theorem State.tell_compacts : (s.tell n).compacts = s.compacts := rfl
@[simp] theorem State.tell_injq : (s.tell n).injq = s.injq := rfl
@[simp] theorem State.tell_flits : (s.tell n).flits = s.flits := rfl
@[simp] theorem State.tell_fk : (s.tell n).fk = s.fk := rfl
@[simp] theorem State.tell_cycled : (s.tell n).cycled = s.cycled := rfl
@[simp] theorem State.tell_downLinks : (s.tell n).downLinks = s.downLinks := rfl
@[simp] theorem State.tell_slots : (s.tell n).slots = s.slots := rfl
@[simp] theorem State.tell_sends : (s.tell n).sends = s.sends := rfl
@[simp] theorem State.tell_rarrs : (s.tell n).rarrs = s.rarrs := rfl
@[simp] theorem State.tell_pbdecs : (s.tell n).pbdecs = s.pbdecs := rfl
@[simp] theorem State.tell_parked : (s.tell n).parked = s.parked := rfl
@[simp] theorem State.tell_barWrites : (s.tell n).barWrites = s.barWrites := rfl
@[simp] theorem State.tell_barReads : (s.tell n).barReads = s.barReads := rfl
@[simp] theorem State.tell_lockWaits : (s.tell n).lockWaits = s.lockWaits := rfl
@[simp] theorem State.tell_strays : (s.tell n).strays = s.strays := rfl
@[simp] theorem State.tell_gangJoins : (s.tell n).gangJoins = s.gangJoins := rfl
@[simp] theorem State.tell_uetOut : (s.tell n).uetOut = s.uetOut := rfl
@[simp] theorem State.tell_uetSeen : (s.tell n).uetSeen = s.uetSeen := rfl
@[simp] theorem State.tell_inbox : (s.tell n).inbox = s.inbox := rfl
@[simp] theorem State.tell_ended : (s.tell n).ended = s.ended := rfl
@[simp] theorem State.tell_signFails : (s.tell n).signFails = s.signFails := rfl
@[simp] theorem State.tell_nextId : (s.tell n).nextId = s.nextId := rfl
@[simp] theorem State.tell_mboxes : (s.tell n).mboxes = s.mboxes := rfl
@[simp] theorem State.tell_msixHost : (s.tell n).msixHost = s.msixHost := rfl
@[simp] theorem State.tell_msixPeer : (s.tell n).msixPeer = s.msixPeer := rfl
@[simp] theorem State.tell_bootaddr : (s.tell n).bootaddr = s.bootaddr := rfl
@[simp] theorem State.tell_bootstat : (s.tell n).bootstat = s.bootstat := rfl
@[simp] theorem State.tell_measure : (s.tell n).measure = s.measure := rfl
@[simp] theorem State.tell_measured : (s.tell n).measured = s.measured := rfl
@[simp] theorem State.tell_version : (s.tell n).version = s.version := rfl
@[simp] theorem State.tell_pklimit : (s.tell n).pklimit = s.pklimit := rfl
@[simp] theorem State.tell_capping : (s.tell n).capping = s.capping := rfl
@[simp] theorem State.tell_sensors : (s.tell n).sensors = s.sensors := rfl
@[simp] theorem State.tell_ioErrors : (s.tell n).ioErrors = s.ioErrors := rfl
@[simp] theorem State.tell_notices : (s.tell n).notices = s.notices ++ [n] := rfl
@[simp] theorem State.tell_outputs : (s.tell n).outputs = s.outputs := rfl
@[simp] theorem State.tell_agenda : (s.tell n).agenda = s.agenda := rfl
@[simp] theorem State.tell_cur : (s.tell n).cur = s.cur := rfl
@[simp] theorem State.tell_cx : (s.tell n).cx = s.cx := rfl
@[simp] theorem State.tell_ckRank : (s.tell n).ckRank = s.ckRank := rfl
@[simp] theorem State.tell_fresh : (s.tell n).fresh = s.fresh := rfl

end

section

variable {s : State} {o : Output}

@[simp] theorem State.emit_part : (s.emit o).part = s.part := rfl
@[simp] theorem State.emit_present : (s.emit o).present = s.present := rfl
@[simp] theorem State.emit_rollback : (s.emit o).rollback = s.rollback := rfl
@[simp] theorem State.emit_cycle : (s.emit o).cycle = s.cycle := rfl
@[simp] theorem State.emit_devset : (s.emit o).devset = s.devset := rfl
@[simp] theorem State.emit_devnum : (s.emit o).devnum = s.devnum := rfl
@[simp] theorem State.emit_fabthr : (s.emit o).fabthr = s.fabthr := rfl
@[simp] theorem State.emit_cohctl : (s.emit o).cohctl = s.cohctl := rfl
@[simp] theorem State.emit_delBound : (s.emit o).delBound = s.delBound := rfl
@[simp] theorem State.emit_delDrop : (s.emit o).delDrop = s.delDrop := rfl
@[simp] theorem State.emit_slfold : (s.emit o).slfold = s.slfold := rfl
@[simp] theorem State.emit_foldstat : (s.emit o).foldstat = s.foldstat := rfl
@[simp] theorem State.emit_foldTo : (s.emit o).foldTo = s.foldTo := rfl
@[simp] theorem State.emit_uetcfg : (s.emit o).uetcfg = s.uetcfg := rfl
@[simp] theorem State.emit_uetrto : (s.emit o).uetrto = s.uetrto := rfl
@[simp] theorem State.emit_uetretry : (s.emit o).uetretry = s.uetretry := rfl
@[simp] theorem State.emit_uetmap : (s.emit o).uetmap = s.uetmap := rfl
@[simp] theorem State.emit_uetTable : (s.emit o).uetTable = s.uetTable := rfl
@[simp] theorem State.emit_mem : (s.emit o).mem = s.mem := rfl
@[simp] theorem State.emit_poison : (s.emit o).poison = s.poison := rfl
@[simp] theorem State.emit_lost : (s.emit o).lost = s.lost := rfl
@[simp] theorem State.emit_recover : (s.emit o).recover = s.recover := rfl
@[simp] theorem State.emit_dir : (s.emit o).dir = s.dir := rfl
@[simp] theorem State.emit_tlb : (s.emit o).tlb = s.tlb := rfl
@[simp] theorem State.emit_wit : (s.emit o).wit = s.wit := rfl
@[simp] theorem State.emit_lineHist : (s.emit o).lineHist = s.lineHist := rfl
@[simp] theorem State.emit_shadow : (s.emit o).shadow = s.shadow := rfl
@[simp] theorem State.emit_shadowTold : (s.emit o).shadowTold = s.shadowTold := rfl
@[simp] theorem State.emit_rels : (s.emit o).rels = s.rels := rfl
@[simp] theorem State.emit_parties : (s.emit o).parties = s.parties := rfl
@[simp] theorem State.emit_tasks : (s.emit o).tasks = s.tasks := rfl
@[simp] theorem State.emit_frames : (s.emit o).frames = s.frames := rfl
@[simp] theorem State.emit_doms : (s.emit o).doms = s.doms := rfl
@[simp] theorem State.emit_tiles : (s.emit o).tiles = s.tiles := rfl
@[simp] theorem State.emit_cluss : (s.emit o).cluss = s.cluss := rfl
@[simp] theorem State.emit_dies : (s.emit o).dies = s.dies := rfl
@[simp] theorem State.emit_gangs : (s.emit o).gangs = s.gangs := rfl
@[simp] theorem State.emit_gangSeq : (s.emit o).gangSeq = s.gangSeq := rfl
@[simp] theorem State.emit_compacts : (s.emit o).compacts = s.compacts := rfl
@[simp] theorem State.emit_injq : (s.emit o).injq = s.injq := rfl
@[simp] theorem State.emit_flits : (s.emit o).flits = s.flits := rfl
@[simp] theorem State.emit_fk : (s.emit o).fk = s.fk := rfl
@[simp] theorem State.emit_cycled : (s.emit o).cycled = s.cycled := rfl
@[simp] theorem State.emit_downLinks : (s.emit o).downLinks = s.downLinks := rfl
@[simp] theorem State.emit_slots : (s.emit o).slots = s.slots := rfl
@[simp] theorem State.emit_sends : (s.emit o).sends = s.sends := rfl
@[simp] theorem State.emit_rarrs : (s.emit o).rarrs = s.rarrs := rfl
@[simp] theorem State.emit_pbdecs : (s.emit o).pbdecs = s.pbdecs := rfl
@[simp] theorem State.emit_parked : (s.emit o).parked = s.parked := rfl
@[simp] theorem State.emit_barWrites : (s.emit o).barWrites = s.barWrites := rfl
@[simp] theorem State.emit_barReads : (s.emit o).barReads = s.barReads := rfl
@[simp] theorem State.emit_lockWaits : (s.emit o).lockWaits = s.lockWaits := rfl
@[simp] theorem State.emit_strays : (s.emit o).strays = s.strays := rfl
@[simp] theorem State.emit_gangJoins : (s.emit o).gangJoins = s.gangJoins := rfl
@[simp] theorem State.emit_uetOut : (s.emit o).uetOut = s.uetOut := rfl
@[simp] theorem State.emit_uetSeen : (s.emit o).uetSeen = s.uetSeen := rfl
@[simp] theorem State.emit_inbox : (s.emit o).inbox = s.inbox := rfl
@[simp] theorem State.emit_ended : (s.emit o).ended = s.ended := rfl
@[simp] theorem State.emit_signFails : (s.emit o).signFails = s.signFails := rfl
@[simp] theorem State.emit_nextId : (s.emit o).nextId = s.nextId := rfl
@[simp] theorem State.emit_mboxes : (s.emit o).mboxes = s.mboxes := rfl
@[simp] theorem State.emit_msixHost : (s.emit o).msixHost = s.msixHost := rfl
@[simp] theorem State.emit_msixPeer : (s.emit o).msixPeer = s.msixPeer := rfl
@[simp] theorem State.emit_bootaddr : (s.emit o).bootaddr = s.bootaddr := rfl
@[simp] theorem State.emit_bootstat : (s.emit o).bootstat = s.bootstat := rfl
@[simp] theorem State.emit_measure : (s.emit o).measure = s.measure := rfl
@[simp] theorem State.emit_measured : (s.emit o).measured = s.measured := rfl
@[simp] theorem State.emit_version : (s.emit o).version = s.version := rfl
@[simp] theorem State.emit_pklimit : (s.emit o).pklimit = s.pklimit := rfl
@[simp] theorem State.emit_capping : (s.emit o).capping = s.capping := rfl
@[simp] theorem State.emit_sensors : (s.emit o).sensors = s.sensors := rfl
@[simp] theorem State.emit_ioErrors : (s.emit o).ioErrors = s.ioErrors := rfl
@[simp] theorem State.emit_notices : (s.emit o).notices = s.notices := rfl
@[simp] theorem State.emit_outputs : (s.emit o).outputs = s.outputs ++ [o] := rfl
@[simp] theorem State.emit_agenda : (s.emit o).agenda = s.agenda := rfl
@[simp] theorem State.emit_cur : (s.emit o).cur = s.cur := rfl
@[simp] theorem State.emit_cx : (s.emit o).cx = s.cx := rfl
@[simp] theorem State.emit_ckRank : (s.emit o).ckRank = s.ckRank := rfl
@[simp] theorem State.emit_fresh : (s.emit o).fresh = s.fresh := rfl

end

section

variable {s : State} {f : Fate}

@[simp] theorem State.setFate_part : (s.setFate f).part = s.part := rfl
@[simp] theorem State.setFate_present : (s.setFate f).present = s.present := rfl
@[simp] theorem State.setFate_rollback : (s.setFate f).rollback = s.rollback := rfl
@[simp] theorem State.setFate_cycle : (s.setFate f).cycle = s.cycle := rfl
@[simp] theorem State.setFate_devset : (s.setFate f).devset = s.devset := rfl
@[simp] theorem State.setFate_devnum : (s.setFate f).devnum = s.devnum := rfl
@[simp] theorem State.setFate_fabthr : (s.setFate f).fabthr = s.fabthr := rfl
@[simp] theorem State.setFate_cohctl : (s.setFate f).cohctl = s.cohctl := rfl
@[simp] theorem State.setFate_delBound : (s.setFate f).delBound = s.delBound := rfl
@[simp] theorem State.setFate_delDrop : (s.setFate f).delDrop = s.delDrop := rfl
@[simp] theorem State.setFate_slfold : (s.setFate f).slfold = s.slfold := rfl
@[simp] theorem State.setFate_foldstat : (s.setFate f).foldstat = s.foldstat := rfl
@[simp] theorem State.setFate_foldTo : (s.setFate f).foldTo = s.foldTo := rfl
@[simp] theorem State.setFate_uetcfg : (s.setFate f).uetcfg = s.uetcfg := rfl
@[simp] theorem State.setFate_uetrto : (s.setFate f).uetrto = s.uetrto := rfl
@[simp] theorem State.setFate_uetretry : (s.setFate f).uetretry = s.uetretry := rfl
@[simp] theorem State.setFate_uetmap : (s.setFate f).uetmap = s.uetmap := rfl
@[simp] theorem State.setFate_uetTable : (s.setFate f).uetTable = s.uetTable := rfl
@[simp] theorem State.setFate_mem : (s.setFate f).mem = s.mem := rfl
@[simp] theorem State.setFate_poison : (s.setFate f).poison = s.poison := rfl
@[simp] theorem State.setFate_lost : (s.setFate f).lost = s.lost := rfl
@[simp] theorem State.setFate_recover : (s.setFate f).recover = s.recover := rfl
@[simp] theorem State.setFate_dir : (s.setFate f).dir = s.dir := rfl
@[simp] theorem State.setFate_tlb : (s.setFate f).tlb = s.tlb := rfl
@[simp] theorem State.setFate_wit : (s.setFate f).wit = s.wit := rfl
@[simp] theorem State.setFate_lineHist : (s.setFate f).lineHist = s.lineHist := rfl
@[simp] theorem State.setFate_shadow : (s.setFate f).shadow = s.shadow := rfl
@[simp] theorem State.setFate_shadowTold : (s.setFate f).shadowTold = s.shadowTold := rfl
@[simp] theorem State.setFate_rels : (s.setFate f).rels = s.rels := rfl
@[simp] theorem State.setFate_parties : (s.setFate f).parties = s.parties := rfl
@[simp] theorem State.setFate_tasks : (s.setFate f).tasks = s.tasks := rfl
@[simp] theorem State.setFate_frames : (s.setFate f).frames = s.frames := rfl
@[simp] theorem State.setFate_doms : (s.setFate f).doms = s.doms := rfl
@[simp] theorem State.setFate_tiles : (s.setFate f).tiles = s.tiles := rfl
@[simp] theorem State.setFate_cluss : (s.setFate f).cluss = s.cluss := rfl
@[simp] theorem State.setFate_dies : (s.setFate f).dies = s.dies := rfl
@[simp] theorem State.setFate_gangs : (s.setFate f).gangs = s.gangs := rfl
@[simp] theorem State.setFate_gangSeq : (s.setFate f).gangSeq = s.gangSeq := rfl
@[simp] theorem State.setFate_compacts : (s.setFate f).compacts = s.compacts := rfl
@[simp] theorem State.setFate_injq : (s.setFate f).injq = s.injq := rfl
@[simp] theorem State.setFate_flits : (s.setFate f).flits = s.flits := rfl
@[simp] theorem State.setFate_fk : (s.setFate f).fk = s.fk := rfl
@[simp] theorem State.setFate_cycled : (s.setFate f).cycled = s.cycled := rfl
@[simp] theorem State.setFate_downLinks : (s.setFate f).downLinks = s.downLinks := rfl
@[simp] theorem State.setFate_slots : (s.setFate f).slots = s.slots := rfl
@[simp] theorem State.setFate_sends : (s.setFate f).sends = s.sends := rfl
@[simp] theorem State.setFate_rarrs : (s.setFate f).rarrs = s.rarrs := rfl
@[simp] theorem State.setFate_pbdecs : (s.setFate f).pbdecs = s.pbdecs := rfl
@[simp] theorem State.setFate_parked : (s.setFate f).parked = s.parked := rfl
@[simp] theorem State.setFate_barWrites : (s.setFate f).barWrites = s.barWrites := rfl
@[simp] theorem State.setFate_barReads : (s.setFate f).barReads = s.barReads := rfl
@[simp] theorem State.setFate_lockWaits : (s.setFate f).lockWaits = s.lockWaits := rfl
@[simp] theorem State.setFate_strays : (s.setFate f).strays = s.strays := rfl
@[simp] theorem State.setFate_gangJoins : (s.setFate f).gangJoins = s.gangJoins := rfl
@[simp] theorem State.setFate_uetOut : (s.setFate f).uetOut = s.uetOut := rfl
@[simp] theorem State.setFate_uetSeen : (s.setFate f).uetSeen = s.uetSeen := rfl
@[simp] theorem State.setFate_inbox : (s.setFate f).inbox = s.inbox := rfl
@[simp] theorem State.setFate_ended : (s.setFate f).ended = s.ended := rfl
@[simp] theorem State.setFate_signFails : (s.setFate f).signFails = s.signFails := rfl
@[simp] theorem State.setFate_nextId : (s.setFate f).nextId = s.nextId := rfl
@[simp] theorem State.setFate_mboxes : (s.setFate f).mboxes = s.mboxes := rfl
@[simp] theorem State.setFate_msixHost : (s.setFate f).msixHost = s.msixHost := rfl
@[simp] theorem State.setFate_msixPeer : (s.setFate f).msixPeer = s.msixPeer := rfl
@[simp] theorem State.setFate_bootaddr : (s.setFate f).bootaddr = s.bootaddr := rfl
@[simp] theorem State.setFate_bootstat : (s.setFate f).bootstat = s.bootstat := rfl
@[simp] theorem State.setFate_measure : (s.setFate f).measure = s.measure := rfl
@[simp] theorem State.setFate_measured : (s.setFate f).measured = s.measured := rfl
@[simp] theorem State.setFate_version : (s.setFate f).version = s.version := rfl
@[simp] theorem State.setFate_pklimit : (s.setFate f).pklimit = s.pklimit := rfl
@[simp] theorem State.setFate_capping : (s.setFate f).capping = s.capping := rfl
@[simp] theorem State.setFate_sensors : (s.setFate f).sensors = s.sensors := rfl
@[simp] theorem State.setFate_ioErrors : (s.setFate f).ioErrors = s.ioErrors := rfl
@[simp] theorem State.setFate_notices : (s.setFate f).notices = s.notices := rfl
@[simp] theorem State.setFate_outputs : (s.setFate f).outputs = s.outputs := rfl
@[simp] theorem State.setFate_agenda : (s.setFate f).agenda = s.agenda := rfl
@[simp] theorem State.setFate_cur : (s.setFate f).cur = s.cur := rfl
@[simp] theorem State.setFate_cx : (s.setFate f).cx = { s.cx with fate := f } := rfl
@[simp] theorem State.setFate_ckRank : (s.setFate f).ckRank = s.ckRank := rfl
@[simp] theorem State.setFate_fresh : (s.setFate f).fresh = s.fresh := rfl

end

section

variable {s : State} {t : Nat} {f : Task → Task}

@[simp] theorem State.updTask_part : (s.updTask t f).part = s.part := by unfold State.updTask; split <;> rfl
@[simp] theorem State.updTask_present : (s.updTask t f).present = s.present := by unfold State.updTask; split <;> rfl
@[simp] theorem State.updTask_rollback : (s.updTask t f).rollback = s.rollback := by unfold State.updTask; split <;> rfl
@[simp] theorem State.updTask_cycle : (s.updTask t f).cycle = s.cycle := by unfold State.updTask; split <;> rfl
@[simp] theorem State.updTask_devset : (s.updTask t f).devset = s.devset := by unfold State.updTask; split <;> rfl
@[simp] theorem State.updTask_devnum : (s.updTask t f).devnum = s.devnum := by unfold State.updTask; split <;> rfl
@[simp] theorem State.updTask_fabthr : (s.updTask t f).fabthr = s.fabthr := by unfold State.updTask; split <;> rfl
@[simp] theorem State.updTask_cohctl : (s.updTask t f).cohctl = s.cohctl := by unfold State.updTask; split <;> rfl
@[simp] theorem State.updTask_delBound : (s.updTask t f).delBound = s.delBound := by unfold State.updTask; split <;> rfl
@[simp] theorem State.updTask_delDrop : (s.updTask t f).delDrop = s.delDrop := by unfold State.updTask; split <;> rfl
@[simp] theorem State.updTask_slfold : (s.updTask t f).slfold = s.slfold := by unfold State.updTask; split <;> rfl
@[simp] theorem State.updTask_foldstat : (s.updTask t f).foldstat = s.foldstat := by unfold State.updTask; split <;> rfl
@[simp] theorem State.updTask_foldTo : (s.updTask t f).foldTo = s.foldTo := by unfold State.updTask; split <;> rfl
@[simp] theorem State.updTask_uetcfg : (s.updTask t f).uetcfg = s.uetcfg := by unfold State.updTask; split <;> rfl
@[simp] theorem State.updTask_uetrto : (s.updTask t f).uetrto = s.uetrto := by unfold State.updTask; split <;> rfl
@[simp] theorem State.updTask_uetretry : (s.updTask t f).uetretry = s.uetretry := by unfold State.updTask; split <;> rfl
@[simp] theorem State.updTask_uetmap : (s.updTask t f).uetmap = s.uetmap := by unfold State.updTask; split <;> rfl
@[simp] theorem State.updTask_uetTable : (s.updTask t f).uetTable = s.uetTable := by unfold State.updTask; split <;> rfl
@[simp] theorem State.updTask_mem : (s.updTask t f).mem = s.mem := by unfold State.updTask; split <;> rfl
@[simp] theorem State.updTask_poison : (s.updTask t f).poison = s.poison := by unfold State.updTask; split <;> rfl
@[simp] theorem State.updTask_lost : (s.updTask t f).lost = s.lost := by unfold State.updTask; split <;> rfl
@[simp] theorem State.updTask_recover : (s.updTask t f).recover = s.recover := by unfold State.updTask; split <;> rfl
@[simp] theorem State.updTask_dir : (s.updTask t f).dir = s.dir := by unfold State.updTask; split <;> rfl
@[simp] theorem State.updTask_tlb : (s.updTask t f).tlb = s.tlb := by unfold State.updTask; split <;> rfl
@[simp] theorem State.updTask_wit : (s.updTask t f).wit = s.wit := by unfold State.updTask; split <;> rfl
@[simp] theorem State.updTask_lineHist : (s.updTask t f).lineHist = s.lineHist := by unfold State.updTask; split <;> rfl
@[simp] theorem State.updTask_shadow : (s.updTask t f).shadow = s.shadow := by unfold State.updTask; split <;> rfl
@[simp] theorem State.updTask_shadowTold : (s.updTask t f).shadowTold = s.shadowTold := by unfold State.updTask; split <;> rfl
@[simp] theorem State.updTask_rels : (s.updTask t f).rels = s.rels := by unfold State.updTask; split <;> rfl
@[simp] theorem State.updTask_parties : (s.updTask t f).parties = s.parties := by unfold State.updTask; split <;> rfl
@[simp] theorem State.updTask_frames : (s.updTask t f).frames = s.frames := by unfold State.updTask; split <;> rfl
@[simp] theorem State.updTask_doms : (s.updTask t f).doms = s.doms := by unfold State.updTask; split <;> rfl
@[simp] theorem State.updTask_tiles : (s.updTask t f).tiles = s.tiles := by unfold State.updTask; split <;> rfl
@[simp] theorem State.updTask_cluss : (s.updTask t f).cluss = s.cluss := by unfold State.updTask; split <;> rfl
@[simp] theorem State.updTask_dies : (s.updTask t f).dies = s.dies := by unfold State.updTask; split <;> rfl
@[simp] theorem State.updTask_gangs : (s.updTask t f).gangs = s.gangs := by unfold State.updTask; split <;> rfl
@[simp] theorem State.updTask_gangSeq : (s.updTask t f).gangSeq = s.gangSeq := by unfold State.updTask; split <;> rfl
@[simp] theorem State.updTask_compacts : (s.updTask t f).compacts = s.compacts := by unfold State.updTask; split <;> rfl
@[simp] theorem State.updTask_injq : (s.updTask t f).injq = s.injq := by unfold State.updTask; split <;> rfl
@[simp] theorem State.updTask_flits : (s.updTask t f).flits = s.flits := by unfold State.updTask; split <;> rfl
@[simp] theorem State.updTask_fk : (s.updTask t f).fk = s.fk := by unfold State.updTask; split <;> rfl
@[simp] theorem State.updTask_cycled : (s.updTask t f).cycled = s.cycled := by unfold State.updTask; split <;> rfl
@[simp] theorem State.updTask_downLinks : (s.updTask t f).downLinks = s.downLinks := by unfold State.updTask; split <;> rfl
@[simp] theorem State.updTask_slots : (s.updTask t f).slots = s.slots := by unfold State.updTask; split <;> rfl
@[simp] theorem State.updTask_sends : (s.updTask t f).sends = s.sends := by unfold State.updTask; split <;> rfl
@[simp] theorem State.updTask_rarrs : (s.updTask t f).rarrs = s.rarrs := by unfold State.updTask; split <;> rfl
@[simp] theorem State.updTask_pbdecs : (s.updTask t f).pbdecs = s.pbdecs := by unfold State.updTask; split <;> rfl
@[simp] theorem State.updTask_parked : (s.updTask t f).parked = s.parked := by unfold State.updTask; split <;> rfl
@[simp] theorem State.updTask_barWrites : (s.updTask t f).barWrites = s.barWrites := by unfold State.updTask; split <;> rfl
@[simp] theorem State.updTask_barReads : (s.updTask t f).barReads = s.barReads := by unfold State.updTask; split <;> rfl
@[simp] theorem State.updTask_lockWaits : (s.updTask t f).lockWaits = s.lockWaits := by unfold State.updTask; split <;> rfl
@[simp] theorem State.updTask_strays : (s.updTask t f).strays = s.strays := by unfold State.updTask; split <;> rfl
@[simp] theorem State.updTask_gangJoins : (s.updTask t f).gangJoins = s.gangJoins := by unfold State.updTask; split <;> rfl
@[simp] theorem State.updTask_uetOut : (s.updTask t f).uetOut = s.uetOut := by unfold State.updTask; split <;> rfl
@[simp] theorem State.updTask_uetSeen : (s.updTask t f).uetSeen = s.uetSeen := by unfold State.updTask; split <;> rfl
@[simp] theorem State.updTask_inbox : (s.updTask t f).inbox = s.inbox := by unfold State.updTask; split <;> rfl
@[simp] theorem State.updTask_ended : (s.updTask t f).ended = s.ended := by unfold State.updTask; split <;> rfl
@[simp] theorem State.updTask_signFails : (s.updTask t f).signFails = s.signFails := by unfold State.updTask; split <;> rfl
@[simp] theorem State.updTask_nextId : (s.updTask t f).nextId = s.nextId := by unfold State.updTask; split <;> rfl
@[simp] theorem State.updTask_mboxes : (s.updTask t f).mboxes = s.mboxes := by unfold State.updTask; split <;> rfl
@[simp] theorem State.updTask_msixHost : (s.updTask t f).msixHost = s.msixHost := by unfold State.updTask; split <;> rfl
@[simp] theorem State.updTask_msixPeer : (s.updTask t f).msixPeer = s.msixPeer := by unfold State.updTask; split <;> rfl
@[simp] theorem State.updTask_bootaddr : (s.updTask t f).bootaddr = s.bootaddr := by unfold State.updTask; split <;> rfl
@[simp] theorem State.updTask_bootstat : (s.updTask t f).bootstat = s.bootstat := by unfold State.updTask; split <;> rfl
@[simp] theorem State.updTask_measure : (s.updTask t f).measure = s.measure := by unfold State.updTask; split <;> rfl
@[simp] theorem State.updTask_measured : (s.updTask t f).measured = s.measured := by unfold State.updTask; split <;> rfl
@[simp] theorem State.updTask_version : (s.updTask t f).version = s.version := by unfold State.updTask; split <;> rfl
@[simp] theorem State.updTask_pklimit : (s.updTask t f).pklimit = s.pklimit := by unfold State.updTask; split <;> rfl
@[simp] theorem State.updTask_capping : (s.updTask t f).capping = s.capping := by unfold State.updTask; split <;> rfl
@[simp] theorem State.updTask_sensors : (s.updTask t f).sensors = s.sensors := by unfold State.updTask; split <;> rfl
@[simp] theorem State.updTask_ioErrors : (s.updTask t f).ioErrors = s.ioErrors := by unfold State.updTask; split <;> rfl
@[simp] theorem State.updTask_notices : (s.updTask t f).notices = s.notices := by unfold State.updTask; split <;> rfl
@[simp] theorem State.updTask_outputs : (s.updTask t f).outputs = s.outputs := by unfold State.updTask; split <;> rfl
@[simp] theorem State.updTask_agenda : (s.updTask t f).agenda = s.agenda := by unfold State.updTask; split <;> rfl
@[simp] theorem State.updTask_cur : (s.updTask t f).cur = s.cur := by unfold State.updTask; split <;> rfl
@[simp] theorem State.updTask_cx : (s.updTask t f).cx = s.cx := by unfold State.updTask; split <;> rfl
@[simp] theorem State.updTask_ckRank : (s.updTask t f).ckRank = s.ckRank := by unfold State.updTask; split <;> rfl
@[simp] theorem State.updTask_fresh : (s.updTask t f).fresh = s.fresh := by unfold State.updTask; split <;> rfl

end

section

variable {s : State} {f : Task → Task}

@[simp] theorem State.upd_part : (s.upd f).part = s.part := State.updTask_part
@[simp] theorem State.upd_present : (s.upd f).present = s.present := State.updTask_present
@[simp] theorem State.upd_rollback : (s.upd f).rollback = s.rollback := State.updTask_rollback
@[simp] theorem State.upd_cycle : (s.upd f).cycle = s.cycle := State.updTask_cycle
@[simp] theorem State.upd_devset : (s.upd f).devset = s.devset := State.updTask_devset
@[simp] theorem State.upd_devnum : (s.upd f).devnum = s.devnum := State.updTask_devnum
@[simp] theorem State.upd_fabthr : (s.upd f).fabthr = s.fabthr := State.updTask_fabthr
@[simp] theorem State.upd_cohctl : (s.upd f).cohctl = s.cohctl := State.updTask_cohctl
@[simp] theorem State.upd_delBound : (s.upd f).delBound = s.delBound := State.updTask_delBound
@[simp] theorem State.upd_delDrop : (s.upd f).delDrop = s.delDrop := State.updTask_delDrop
@[simp] theorem State.upd_slfold : (s.upd f).slfold = s.slfold := State.updTask_slfold
@[simp] theorem State.upd_foldstat : (s.upd f).foldstat = s.foldstat := State.updTask_foldstat
@[simp] theorem State.upd_foldTo : (s.upd f).foldTo = s.foldTo := State.updTask_foldTo
@[simp] theorem State.upd_uetcfg : (s.upd f).uetcfg = s.uetcfg := State.updTask_uetcfg
@[simp] theorem State.upd_uetrto : (s.upd f).uetrto = s.uetrto := State.updTask_uetrto
@[simp] theorem State.upd_uetretry : (s.upd f).uetretry = s.uetretry := State.updTask_uetretry
@[simp] theorem State.upd_uetmap : (s.upd f).uetmap = s.uetmap := State.updTask_uetmap
@[simp] theorem State.upd_uetTable : (s.upd f).uetTable = s.uetTable := State.updTask_uetTable
@[simp] theorem State.upd_mem : (s.upd f).mem = s.mem := State.updTask_mem
@[simp] theorem State.upd_poison : (s.upd f).poison = s.poison := State.updTask_poison
@[simp] theorem State.upd_lost : (s.upd f).lost = s.lost := State.updTask_lost
@[simp] theorem State.upd_recover : (s.upd f).recover = s.recover := State.updTask_recover
@[simp] theorem State.upd_dir : (s.upd f).dir = s.dir := State.updTask_dir
@[simp] theorem State.upd_tlb : (s.upd f).tlb = s.tlb := State.updTask_tlb
@[simp] theorem State.upd_wit : (s.upd f).wit = s.wit := State.updTask_wit
@[simp] theorem State.upd_lineHist : (s.upd f).lineHist = s.lineHist := State.updTask_lineHist
@[simp] theorem State.upd_shadow : (s.upd f).shadow = s.shadow := State.updTask_shadow
@[simp] theorem State.upd_shadowTold : (s.upd f).shadowTold = s.shadowTold := State.updTask_shadowTold
@[simp] theorem State.upd_rels : (s.upd f).rels = s.rels := State.updTask_rels
@[simp] theorem State.upd_parties : (s.upd f).parties = s.parties := State.updTask_parties
@[simp] theorem State.upd_frames : (s.upd f).frames = s.frames := State.updTask_frames
@[simp] theorem State.upd_doms : (s.upd f).doms = s.doms := State.updTask_doms
@[simp] theorem State.upd_tiles : (s.upd f).tiles = s.tiles := State.updTask_tiles
@[simp] theorem State.upd_cluss : (s.upd f).cluss = s.cluss := State.updTask_cluss
@[simp] theorem State.upd_dies : (s.upd f).dies = s.dies := State.updTask_dies
@[simp] theorem State.upd_gangs : (s.upd f).gangs = s.gangs := State.updTask_gangs
@[simp] theorem State.upd_gangSeq : (s.upd f).gangSeq = s.gangSeq := State.updTask_gangSeq
@[simp] theorem State.upd_compacts : (s.upd f).compacts = s.compacts := State.updTask_compacts
@[simp] theorem State.upd_injq : (s.upd f).injq = s.injq := State.updTask_injq
@[simp] theorem State.upd_flits : (s.upd f).flits = s.flits := State.updTask_flits
@[simp] theorem State.upd_fk : (s.upd f).fk = s.fk := State.updTask_fk
@[simp] theorem State.upd_cycled : (s.upd f).cycled = s.cycled := State.updTask_cycled
@[simp] theorem State.upd_downLinks : (s.upd f).downLinks = s.downLinks := State.updTask_downLinks
@[simp] theorem State.upd_slots : (s.upd f).slots = s.slots := State.updTask_slots
@[simp] theorem State.upd_sends : (s.upd f).sends = s.sends := State.updTask_sends
@[simp] theorem State.upd_rarrs : (s.upd f).rarrs = s.rarrs := State.updTask_rarrs
@[simp] theorem State.upd_pbdecs : (s.upd f).pbdecs = s.pbdecs := State.updTask_pbdecs
@[simp] theorem State.upd_parked : (s.upd f).parked = s.parked := State.updTask_parked
@[simp] theorem State.upd_barWrites : (s.upd f).barWrites = s.barWrites := State.updTask_barWrites
@[simp] theorem State.upd_barReads : (s.upd f).barReads = s.barReads := State.updTask_barReads
@[simp] theorem State.upd_lockWaits : (s.upd f).lockWaits = s.lockWaits := State.updTask_lockWaits
@[simp] theorem State.upd_strays : (s.upd f).strays = s.strays := State.updTask_strays
@[simp] theorem State.upd_gangJoins : (s.upd f).gangJoins = s.gangJoins := State.updTask_gangJoins
@[simp] theorem State.upd_uetOut : (s.upd f).uetOut = s.uetOut := State.updTask_uetOut
@[simp] theorem State.upd_uetSeen : (s.upd f).uetSeen = s.uetSeen := State.updTask_uetSeen
@[simp] theorem State.upd_inbox : (s.upd f).inbox = s.inbox := State.updTask_inbox
@[simp] theorem State.upd_ended : (s.upd f).ended = s.ended := State.updTask_ended
@[simp] theorem State.upd_signFails : (s.upd f).signFails = s.signFails := State.updTask_signFails
@[simp] theorem State.upd_nextId : (s.upd f).nextId = s.nextId := State.updTask_nextId
@[simp] theorem State.upd_mboxes : (s.upd f).mboxes = s.mboxes := State.updTask_mboxes
@[simp] theorem State.upd_msixHost : (s.upd f).msixHost = s.msixHost := State.updTask_msixHost
@[simp] theorem State.upd_msixPeer : (s.upd f).msixPeer = s.msixPeer := State.updTask_msixPeer
@[simp] theorem State.upd_bootaddr : (s.upd f).bootaddr = s.bootaddr := State.updTask_bootaddr
@[simp] theorem State.upd_bootstat : (s.upd f).bootstat = s.bootstat := State.updTask_bootstat
@[simp] theorem State.upd_measure : (s.upd f).measure = s.measure := State.updTask_measure
@[simp] theorem State.upd_measured : (s.upd f).measured = s.measured := State.updTask_measured
@[simp] theorem State.upd_version : (s.upd f).version = s.version := State.updTask_version
@[simp] theorem State.upd_pklimit : (s.upd f).pklimit = s.pklimit := State.updTask_pklimit
@[simp] theorem State.upd_capping : (s.upd f).capping = s.capping := State.updTask_capping
@[simp] theorem State.upd_sensors : (s.upd f).sensors = s.sensors := State.updTask_sensors
@[simp] theorem State.upd_ioErrors : (s.upd f).ioErrors = s.ioErrors := State.updTask_ioErrors
@[simp] theorem State.upd_notices : (s.upd f).notices = s.notices := State.updTask_notices
@[simp] theorem State.upd_outputs : (s.upd f).outputs = s.outputs := State.updTask_outputs
@[simp] theorem State.upd_agenda : (s.upd f).agenda = s.agenda := State.updTask_agenda
@[simp] theorem State.upd_cur : (s.upd f).cur = s.cur := State.updTask_cur
@[simp] theorem State.upd_cx : (s.upd f).cx = s.cx := State.updTask_cx
@[simp] theorem State.upd_ckRank : (s.upd f).ckRank = s.ckRank := State.updTask_ckRank
@[simp] theorem State.upd_fresh : (s.upd f).fresh = s.fresh := State.updTask_fresh

end

end Sys2Proof.Machine
end

