-- ==== Sys2Proof/Laws/Units.lean ====
section
/-! SUPPORT. What each base update leaves in each unit's record: a record put in is read back, and no other record
changes. -/

namespace Sys2Proof.Machine

open Sys2Proof


section

variable {s : State} {t : Nat} {x : Task} {a b : Nat}

@[simp] theorem State.setTask_task_opt : (s.setTask t x).task? a = if t = a then some x else s.task? a :=
  Map.get?_set ..
@[simp] theorem State.setTask_task : (s.setTask t x).task a = if t = a then x else s.task a :=
  Map.getD_set ..
@[simp] theorem State.setTask_tile : (s.setTask t x).tile a = s.tile a := rfl
@[simp] theorem State.setTask_clus : (s.setTask t x).clus a = s.clus a := rfl
@[simp] theorem State.setTask_wheel : (s.setTask t x).wheel a = s.wheel a := rfl
@[simp] theorem State.setTask_cone : (s.setTask t x).cone a b = s.cone a b := rfl
@[simp] theorem State.setTask_die : (s.setTask t x).die a = s.die a := rfl
@[simp] theorem State.setTask_dom : (s.setTask t x).dom a = s.dom a := rfl
@[simp] theorem State.setTask_frame : (s.setTask t x).frame a = s.frame a := rfl
@[simp] theorem State.setTask_gang_opt : (s.setTask t x).gang? a = s.gang? a := rfl
@[simp] theorem State.setTask_dirEnt : (s.setTask t x).dirEnt a = s.dirEnt a := rfl
@[simp] theorem State.setTask_compact_opt : (s.setTask t x).compact? a = s.compact? a := rfl

end

section

variable {s : State} {t : Nat} {x : Tile} {a b : Nat}

@[simp] theorem State.setTile_task_opt : (s.setTile t x).task? a = s.task? a := rfl
@[simp] theorem State.setTile_task : (s.setTile t x).task a = s.task a := rfl
@[simp] theorem State.setTile_tile : (s.setTile t x).tile a = if t = a then x else s.tile a :=
  Map.getD_set ..
@[simp] theorem State.setTile_clus : (s.setTile t x).clus a = s.clus a := rfl
@[simp] theorem State.setTile_wheel : (s.setTile t x).wheel a = s.wheel a := rfl
@[simp] theorem State.setTile_cone : (s.setTile t x).cone a b = s.cone a b := rfl
@[simp] theorem State.setTile_die : (s.setTile t x).die a = s.die a := rfl
@[simp] theorem State.setTile_dom : (s.setTile t x).dom a = s.dom a := rfl
@[simp] theorem State.setTile_frame : (s.setTile t x).frame a = s.frame a := rfl
@[simp] theorem State.setTile_gang_opt : (s.setTile t x).gang? a = s.gang? a := rfl
@[simp] theorem State.setTile_dirEnt : (s.setTile t x).dirEnt a = s.dirEnt a := rfl
@[simp] theorem State.setTile_compact_opt : (s.setTile t x).compact? a = s.compact? a := rfl
@[simp] theorem State.setTile_me : (s.setTile t x).me = s.me := rfl

end

section

variable {s : State} {c : Nat} {x : Clus} {a b : Nat}

@[simp] theorem State.setClus_task_opt : (s.setClus c x).task? a = s.task? a := rfl
@[simp] theorem State.setClus_task : (s.setClus c x).task a = s.task a := rfl
@[simp] theorem State.setClus_tile : (s.setClus c x).tile a = s.tile a := rfl
@[simp] theorem State.setClus_clus : (s.setClus c x).clus a = if c = a then x else s.clus a :=
  Map.getD_set ..
@[simp] theorem State.setClus_wheel : (s.setClus c x).wheel a = if c = a then x.wheel else s.wheel a := by
  simp only [State.wheel, State.clus, State.setClus, Map.getD_set]; split <;> rfl
@[simp] theorem State.setClus_cone : (s.setClus c x).cone a b = if c = a then x.cones.getD b Cone.reset else s.cone a b := by
  simp only [State.cone, State.clus, State.setClus, Map.getD_set]; split <;> rfl
@[simp] theorem State.setClus_die : (s.setClus c x).die a = s.die a := rfl
@[simp] theorem State.setClus_dom : (s.setClus c x).dom a = s.dom a := rfl
@[simp] theorem State.setClus_frame : (s.setClus c x).frame a = s.frame a := rfl
@[simp] theorem State.setClus_gang_opt : (s.setClus c x).gang? a = s.gang? a := rfl
@[simp] theorem State.setClus_dirEnt : (s.setClus c x).dirEnt a = s.dirEnt a := rfl
@[simp] theorem State.setClus_compact_opt : (s.setClus c x).compact? a = s.compact? a := rfl
@[simp] theorem State.setClus_me : (s.setClus c x).me = s.me := rfl

end

section

variable {s : State} {d : Nat} {x : Die} {a b : Nat}

@[simp] theorem State.setDie_task_opt : (s.setDie d x).task? a = s.task? a := rfl
@[simp] theorem State.setDie_task : (s.setDie d x).task a = s.task a := rfl
@[simp] theorem State.setDie_tile : (s.setDie d x).tile a = s.tile a := rfl
@[simp] theorem State.setDie_clus : (s.setDie d x).clus a = s.clus a := rfl
@[simp] theorem State.setDie_wheel : (s.setDie d x).wheel a = s.wheel a := rfl
@[simp] theorem State.setDie_cone : (s.setDie d x).cone a b = s.cone a b := rfl
@[simp] theorem State.setDie_die : (s.setDie d x).die a = if d = a then x else s.die a :=
  Map.getD_set ..
@[simp] theorem State.setDie_dom : (s.setDie d x).dom a = s.dom a := rfl
@[simp] theorem State.setDie_frame : (s.setDie d x).frame a = s.frame a := rfl
@[simp] theorem State.setDie_gang_opt : (s.setDie d x).gang? a = s.gang? a := rfl
@[simp] theorem State.setDie_dirEnt : (s.setDie d x).dirEnt a = s.dirEnt a := rfl
@[simp] theorem State.setDie_compact_opt : (s.setDie d x).compact? a = s.compact? a := rfl
@[simp] theorem State.setDie_me : (s.setDie d x).me = s.me := rfl

end

section

variable {s : State} {d : Nat} {x : Dom} {a b : Nat}

@[simp] theorem State.setDom_task_opt : (s.setDom d x).task? a = s.task? a := rfl
@[simp] theorem State.setDom_task : (s.setDom d x).task a = s.task a := rfl
@[simp] theorem State.setDom_tile : (s.setDom d x).tile a = s.tile a := rfl
@[simp] theorem State.setDom_clus : (s.setDom d x).clus a = s.clus a := rfl
@[simp] theorem State.setDom_wheel : (s.setDom d x).wheel a = s.wheel a := rfl
@[simp] theorem State.setDom_cone : (s.setDom d x).cone a b = s.cone a b := rfl
@[simp] theorem State.setDom_die : (s.setDom d x).die a = s.die a := rfl
@[simp] theorem State.setDom_dom : (s.setDom d x).dom a = if d = a then x else s.dom a :=
  Map.getD_set ..
@[simp] theorem State.setDom_frame : (s.setDom d x).frame a = s.frame a := rfl
@[simp] theorem State.setDom_gang_opt : (s.setDom d x).gang? a = s.gang? a := rfl
@[simp] theorem State.setDom_dirEnt : (s.setDom d x).dirEnt a = s.dirEnt a := rfl
@[simp] theorem State.setDom_compact_opt : (s.setDom d x).compact? a = s.compact? a := rfl
@[simp] theorem State.setDom_me : (s.setDom d x).me = s.me := rfl

end

section

variable {s : State} {f : Nat} {x : Frame} {a b : Nat}

@[simp] theorem State.setFrame_task_opt : (s.setFrame f x).task? a = s.task? a := rfl
@[simp] theorem State.setFrame_task : (s.setFrame f x).task a = s.task a := rfl
@[simp] theorem State.setFrame_tile : (s.setFrame f x).tile a = s.tile a := rfl
@[simp] theorem State.setFrame_clus : (s.setFrame f x).clus a = s.clus a := rfl
@[simp] theorem State.setFrame_wheel : (s.setFrame f x).wheel a = s.wheel a := rfl
@[simp] theorem State.setFrame_cone : (s.setFrame f x).cone a b = s.cone a b := rfl
@[simp] theorem State.setFrame_die : (s.setFrame f x).die a = s.die a := rfl
@[simp] theorem State.setFrame_dom : (s.setFrame f x).dom a = s.dom a := rfl
@[simp] theorem State.setFrame_frame : (s.setFrame f x).frame a = if f = a then x else s.frame a :=
  Map.getD_set ..
@[simp] theorem State.setFrame_gang_opt : (s.setFrame f x).gang? a = s.gang? a := rfl
@[simp] theorem State.setFrame_dirEnt : (s.setFrame f x).dirEnt a = s.dirEnt a := rfl
@[simp] theorem State.setFrame_compact_opt : (s.setFrame f x).compact? a = s.compact? a := rfl
@[simp] theorem State.setFrame_me : (s.setFrame f x).me = s.me := rfl

end

section

variable {s : State} {g : Nat} {x : Gang} {a b : Nat}

@[simp] theorem State.setGang_task_opt : (s.setGang g x).task? a = s.task? a := rfl
@[simp] theorem State.setGang_task : (s.setGang g x).task a = s.task a := rfl
@[simp] theorem State.setGang_tile : (s.setGang g x).tile a = s.tile a := rfl
@[simp] theorem State.setGang_clus : (s.setGang g x).clus a = s.clus a := rfl
@[simp] theorem State.setGang_wheel : (s.setGang g x).wheel a = s.wheel a := rfl
@[simp] theorem State.setGang_cone : (s.setGang g x).cone a b = s.cone a b := rfl
@[simp] theorem State.setGang_die : (s.setGang g x).die a = s.die a := rfl
@[simp] theorem State.setGang_dom : (s.setGang g x).dom a = s.dom a := rfl
@[simp] theorem State.setGang_frame : (s.setGang g x).frame a = s.frame a := rfl
@[simp] theorem State.setGang_gang_opt : (s.setGang g x).gang? a = if g = a then some x else s.gang? a :=
  Map.get?_set ..
@[simp] theorem State.setGang_dirEnt : (s.setGang g x).dirEnt a = s.dirEnt a := rfl
@[simp] theorem State.setGang_compact_opt : (s.setGang g x).compact? a = s.compact? a := rfl
@[simp] theorem State.setGang_me : (s.setGang g x).me = s.me := rfl

end

section

variable {s : State} {l : Nat} {e : DirEnt} {a b : Nat}

@[simp] theorem State.setDir_task_opt : (s.setDir l e).task? a = s.task? a := rfl
@[simp] theorem State.setDir_task : (s.setDir l e).task a = s.task a := rfl
@[simp] theorem State.setDir_tile : (s.setDir l e).tile a = s.tile a := rfl
@[simp] theorem State.setDir_clus : (s.setDir l e).clus a = s.clus a := rfl
@[simp] theorem State.setDir_wheel : (s.setDir l e).wheel a = s.wheel a := rfl
@[simp] theorem State.setDir_cone : (s.setDir l e).cone a b = s.cone a b := rfl
@[simp] theorem State.setDir_die : (s.setDir l e).die a = s.die a := rfl
@[simp] theorem State.setDir_dom : (s.setDir l e).dom a = s.dom a := rfl
@[simp] theorem State.setDir_frame : (s.setDir l e).frame a = s.frame a := rfl
@[simp] theorem State.setDir_gang_opt : (s.setDir l e).gang? a = s.gang? a := rfl
@[simp] theorem State.setDir_dirEnt : (s.setDir l e).dirEnt a = if l = a then e else s.dirEnt a :=
  Map.getD_set ..
@[simp] theorem State.setDir_compact_opt : (s.setDir l e).compact? a = s.compact? a := rfl
@[simp] theorem State.setDir_me : (s.setDir l e).me = s.me := rfl

end

section

variable {s : State} {m : Mem} {a b : Nat}

@[simp] theorem State.setMem_task_opt : (s.setMem m).task? a = s.task? a := rfl
@[simp] theorem State.setMem_task : (s.setMem m).task a = s.task a := rfl
@[simp] theorem State.setMem_tile : (s.setMem m).tile a = s.tile a := rfl
@[simp] theorem State.setMem_clus : (s.setMem m).clus a = s.clus a := rfl
@[simp] theorem State.setMem_wheel : (s.setMem m).wheel a = s.wheel a := rfl
@[simp] theorem State.setMem_cone : (s.setMem m).cone a b = s.cone a b := rfl
@[simp] theorem State.setMem_die : (s.setMem m).die a = s.die a := rfl
@[simp] theorem State.setMem_dom : (s.setMem m).dom a = s.dom a := rfl
@[simp] theorem State.setMem_frame : (s.setMem m).frame a = s.frame a := rfl
@[simp] theorem State.setMem_gang_opt : (s.setMem m).gang? a = s.gang? a := rfl
@[simp] theorem State.setMem_dirEnt : (s.setMem m).dirEnt a = s.dirEnt a := rfl
@[simp] theorem State.setMem_compact_opt : (s.setMem m).compact? a = s.compact? a := rfl
@[simp] theorem State.setMem_me : (s.setMem m).me = s.me := rfl

end

section

variable {s : State} {n : Notice} {a b : Nat}

@[simp] theorem State.tell_task_opt : (s.tell n).task? a = s.task? a := rfl
@[simp] theorem State.tell_task : (s.tell n).task a = s.task a := rfl
@[simp] theorem State.tell_tile : (s.tell n).tile a = s.tile a := rfl
@[simp] theorem State.tell_clus : (s.tell n).clus a = s.clus a := rfl
@[simp] theorem State.tell_wheel : (s.tell n).wheel a = s.wheel a := rfl
@[simp] theorem State.tell_cone : (s.tell n).cone a b = s.cone a b := rfl
@[simp] theorem State.tell_die : (s.tell n).die a = s.die a := rfl
@[simp] theorem State.tell_dom : (s.tell n).dom a = s.dom a := rfl
@[simp] theorem State.tell_frame : (s.tell n).frame a = s.frame a := rfl
@[simp] theorem State.tell_gang_opt : (s.tell n).gang? a = s.gang? a := rfl
@[simp] theorem State.tell_dirEnt : (s.tell n).dirEnt a = s.dirEnt a := rfl
@[simp] theorem State.tell_compact_opt : (s.tell n).compact? a = s.compact? a := rfl
@[simp] theorem State.tell_me : (s.tell n).me = s.me := rfl

end

section

variable {s : State} {o : Output} {a b : Nat}

@[simp] theorem State.emit_task_opt : (s.emit o).task? a = s.task? a := rfl
@[simp] theorem State.emit_task : (s.emit o).task a = s.task a := rfl
@[simp] theorem State.emit_tile : (s.emit o).tile a = s.tile a := rfl
@[simp] theorem State.emit_clus : (s.emit o).clus a = s.clus a := rfl
@[simp] theorem State.emit_wheel : (s.emit o).wheel a = s.wheel a := rfl
@[simp] theorem State.emit_cone : (s.emit o).cone a b = s.cone a b := rfl
@[simp] theorem State.emit_die : (s.emit o).die a = s.die a := rfl
@[simp] theorem State.emit_dom : (s.emit o).dom a = s.dom a := rfl
@[simp] theorem State.emit_frame : (s.emit o).frame a = s.frame a := rfl
@[simp] theorem State.emit_gang_opt : (s.emit o).gang? a = s.gang? a := rfl
@[simp] theorem State.emit_dirEnt : (s.emit o).dirEnt a = s.dirEnt a := rfl
@[simp] theorem State.emit_compact_opt : (s.emit o).compact? a = s.compact? a := rfl
@[simp] theorem State.emit_me : (s.emit o).me = s.me := rfl

end

section

variable {s : State} {y : Fate} {a b : Nat}

@[simp] theorem State.setFate_task_opt : (s.setFate y).task? a = s.task? a := rfl
@[simp] theorem State.setFate_task : (s.setFate y).task a = s.task a := rfl
@[simp] theorem State.setFate_tile : (s.setFate y).tile a = s.tile a := rfl
@[simp] theorem State.setFate_clus : (s.setFate y).clus a = s.clus a := rfl
@[simp] theorem State.setFate_wheel : (s.setFate y).wheel a = s.wheel a := rfl
@[simp] theorem State.setFate_cone : (s.setFate y).cone a b = s.cone a b := rfl
@[simp] theorem State.setFate_die : (s.setFate y).die a = s.die a := rfl
@[simp] theorem State.setFate_dom : (s.setFate y).dom a = s.dom a := rfl
@[simp] theorem State.setFate_frame : (s.setFate y).frame a = s.frame a := rfl
@[simp] theorem State.setFate_gang_opt : (s.setFate y).gang? a = s.gang? a := rfl
@[simp] theorem State.setFate_dirEnt : (s.setFate y).dirEnt a = s.dirEnt a := rfl
@[simp] theorem State.setFate_compact_opt : (s.setFate y).compact? a = s.compact? a := rfl
@[simp] theorem State.setFate_me : (s.setFate y).me = s.me := rfl

end

section

variable {s : State} {t : Nat} {f : Task → Task} {a b : Nat}

@[simp] theorem State.updTask_tile : (s.updTask t f).tile a = s.tile a := by unfold State.updTask; split <;> rfl
@[simp] theorem State.updTask_clus : (s.updTask t f).clus a = s.clus a := by unfold State.updTask; split <;> rfl
@[simp] theorem State.updTask_wheel : (s.updTask t f).wheel a = s.wheel a := by unfold State.updTask; split <;> rfl
@[simp] theorem State.updTask_cone : (s.updTask t f).cone a b = s.cone a b := by unfold State.updTask; split <;> rfl
@[simp] theorem State.updTask_die : (s.updTask t f).die a = s.die a := by unfold State.updTask; split <;> rfl
@[simp] theorem State.updTask_dom : (s.updTask t f).dom a = s.dom a := by unfold State.updTask; split <;> rfl
@[simp] theorem State.updTask_frame : (s.updTask t f).frame a = s.frame a := by unfold State.updTask; split <;> rfl
@[simp] theorem State.updTask_gang_opt : (s.updTask t f).gang? a = s.gang? a := by unfold State.updTask; split <;> rfl
@[simp] theorem State.updTask_dirEnt : (s.updTask t f).dirEnt a = s.dirEnt a := by unfold State.updTask; split <;> rfl
@[simp] theorem State.updTask_compact_opt : (s.updTask t f).compact? a = s.compact? a := by unfold State.updTask; split <;> rfl

/-- A change of a task's record is read back, and no other task changes. -/
@[simp] theorem State.updTask_task_opt : (s.updTask t f).task? a = if t = a then (s.task? a).map f else s.task? a := by
  unfold State.updTask
  split
  · simp only [State.setTask_task_opt]
    split
    · subst_vars; simp_all
    · rfl
  · split
    · subst_vars; simp_all
    · rfl

theorem State.task_of_opt {x : Task} (h : s.task? t = some x) : s.task t = x := by
  simp only [State.task?] at h
  simp [State.task, Map.getD, h]

/-- The change of a task that is there. -/
theorem State.updTask_of_opt {x : Task} (h : s.task? t = some x) : s.updTask t f = s.setTask t (f x) := by
  simp [State.updTask, h]

theorem State.updTask_task {x : Task} (h : s.task? t = some x) : (s.updTask t f).task t = f x :=
  State.task_of_opt (by simp [h])

end

section

variable {s : State} {f : Task → Task} {a b : Nat}

@[simp] theorem State.upd_tile : (s.upd f).tile a = s.tile a := State.updTask_tile
@[simp] theorem State.upd_clus : (s.upd f).clus a = s.clus a := State.updTask_clus
@[simp] theorem State.upd_wheel : (s.upd f).wheel a = s.wheel a := State.updTask_wheel
@[simp] theorem State.upd_cone : (s.upd f).cone a b = s.cone a b := State.updTask_cone
@[simp] theorem State.upd_die : (s.upd f).die a = s.die a := State.updTask_die
@[simp] theorem State.upd_dom : (s.upd f).dom a = s.dom a := State.updTask_dom
@[simp] theorem State.upd_frame : (s.upd f).frame a = s.frame a := State.updTask_frame
@[simp] theorem State.upd_gang_opt : (s.upd f).gang? a = s.gang? a := State.updTask_gang_opt
@[simp] theorem State.upd_dirEnt : (s.upd f).dirEnt a = s.dirEnt a := State.updTask_dirEnt
@[simp] theorem State.upd_compact_opt : (s.upd f).compact? a = s.compact? a := State.updTask_compact_opt

@[simp] theorem State.upd_task_opt : (s.upd f).task? a = if s.cur = a then (s.task? a).map f else s.task? a :=
  State.updTask_task_opt

/-- The change of the current task is what is read of it. -/
theorem State.upd_me {x : Task} (h : s.task? s.cur = some x) : (s.upd f).me = f x := by
  have := State.updTask_task (f := f) h
  simpa [State.me, State.upd] using this

theorem State.me_of_opt {x : Task} (h : s.task? s.cur = some x) : s.me = x := State.task_of_opt h

end

section

variable {s : State}

/-! The updates that are made of the base ones. -/

theorem State.updClus_def {c : Nat} {f : Clus → Clus} : s.updClus c f = s.setClus c (f (s.clus c)) := rfl
theorem State.updDie_def {d : Nat} {f : Die → Die} : s.updDie d f = s.setDie d (f (s.die d)) := rfl
theorem State.updDir_def {l : Nat} {f : DirEnt → DirEnt} : s.updDir l f = s.setDir l (f (s.dirEnt l)) := rfl
theorem State.setWheel_def {c : Nat} {w : Wheel} : s.setWheel c w = s.setClus c { s.clus c with wheel := w } := rfl
theorem State.setCone_def {c n : Nat} {x : Cone} :
    s.setCone c n x = s.setClus c { s.clus c with cones := (s.clus c).cones.set n x } := rfl
theorem State.setMe_def {x : Task} : s.setMe x = s.setTask s.cur x := rfl

/-- A cone put in is read back, and no other cone changes. -/
theorem State.setCone_cone {c n a b : Nat} {x : Cone} :
    (s.setCone c n x).cone a b = if c = a ∧ n = b then x else s.cone a b := by
  rw [State.setCone_def, State.setClus_cone]
  by_cases h : c = a
  · subst h
    simp [Map.getD_set, State.cone]
  · simp [h]

/-- A Wheel put in is read back, and no other Wheel changes. -/
theorem State.setWheel_wheel {c a : Nat} {w : Wheel} : (s.setWheel c w).wheel a = if c = a then w else s.wheel a := by
  simp [State.setWheel_def]

end

end Sys2Proof.Machine
end

