-- ==== Sys2Proof/Laws/Outcomes.lean ====
section
/-! SUPPORT. Everything the shared operations can do, said once: what a successful read, write or instruction must have
done, so that a proof cites these and unfolds none of them. -/

namespace Sys2Proof.Machine

open Sys2Proof

/-- popQ gives the oldest entry of a q register that is not empty (01 R22). -/
theorem popQ_iff {s t : State} {n : BitVec 3} {v : Word} : s.popQ n = .ok (v, t) ↔ Reads s (.q n) v t := by
  refine ⟨fun h => ?_, readSrc_of_reads⟩
  simp only [State.popQ] at h
  split at h
  · cases h
  · rename_i heq
    cases h
    refine ⟨by simp [canRead, heq], by simp [valueOf, heq], ?_⟩
    exact upd_congr (by simp [heq])

/-- readSrc gives the value of the source, or stalls on an empty q register (06 R137). -/
theorem readSrc_iff {s t : State} {r : Reg} {v : Word} : s.readSrc r = .ok (v, t) ↔ Reads s r v t := by
  refine ⟨fun h => ?_, readSrc_of_reads⟩
  cases r with
  | q n => exact popQ_iff.mp h
  | _ => cases h; exact ⟨trivial, rfl, rfl⟩

theorem readSrc_stalls {s : State} {r : Reg} {e : Stop} (h : s.readSrc r = .error e) : e = .stall ∧ ¬ canRead s r := by
  cases r with
  | q n =>
    simp only [State.readSrc, State.popQ] at h
    split at h
    · cases h; exact ⟨rfl, by simp [canRead, *]⟩
    · cases h
  | _ => cases h

/-- writeDst writes the destination, or stalls on a full q register (06 R137). -/
theorem writeDst_iff {s t : State} {r : Reg} {v : Word} : s.writeDst r v = .ok t ↔ Writes s r v t := by
  refine ⟨fun h => ?_, writeDst_of_writes⟩
  cases r with
  | q n =>
    simp only [State.writeDst, State.pushQ] at h
    split at h
    · rename_i hl
      cases h
      exact ⟨hl, upd_congr rfl⟩
    · cases h
  | _ => cases h; exact ⟨trivial, rfl⟩

theorem writeDst_stalls {s : State} {r : Reg} {v : Word} {e : Stop} (h : s.writeDst r v = .error e) :
    e = .stall ∧ ¬ canWrite s r := by
  cases r with
  | q n =>
    simp only [State.writeDst, State.pushQ] at h
    split at h
    · cases h
    · rename_i hl
      cases h
      exact ⟨rfl, hl⟩
  | _ => cases h

/-- opndB gives the immediate or the source (06 R137). -/
theorem opndB_iff {s t : State} {f : ScF} {v : Word} : s.opndB f = .ok (v, t) ↔ ReadsB s f v t := by
  simp only [State.opndB, ReadsB]
  split
  · simp only [Except.ok.injEq, Prod.mk.injEq]
    exact ⟨fun h => ⟨h.1.symm, h.2.symm⟩, fun h => ⟨h.1.symm, h.2.symm⟩⟩
  · exact readSrc_iff

/-- An instruction of one source completes exactly when the source is read and the destination written. -/
theorem un_iff {s t : State} {f : ScF} {g : Word → Word} :
    s.un f g = .ok t ↔ ∃ a s1, Reads s f.a a s1 ∧ Writes s1 f.d (g a) t := by
  constructor
  · intro h
    simp only [State.un, bind, Except.bind] at h
    split at h
    · cases h
    · rename_i v hv
      exact ⟨v.1, v.2, readSrc_iff.mp hv, writeDst_iff.mp h⟩
  · rintro ⟨a, s1, ha, hd⟩
    exact un_done ha hd

/-- The same of two sources. -/
theorem bin_iff {s t : State} {f : ScF} {g : Word → Word → Word} :
    s.bin f g = .ok t ↔ ∃ a s1 b s2, Reads s f.a a s1 ∧ ReadsB s1 f b s2 ∧ Writes s2 f.d (g a b) t := by
  constructor
  · intro h
    simp only [State.bin, bind, Except.bind] at h
    split at h
    · cases h
    · rename_i v hv
      split at h
      · cases h
      · rename_i u hu
        exact ⟨v.1, v.2, u.1, u.2, readSrc_iff.mp hv, opndB_iff.mp hu, writeDst_iff.mp h⟩
  · rintro ⟨a, s1, b, s2, ha, hb, hd⟩
    exact bin_done ha hb hd

/-- The same of three sources. -/
theorem tern_iff {s t : State} {f : ScF} {g : Word → Word → Word → Word} :
    s.tern f g = .ok t ↔ ∃ a s1 b s2 c s3, Reads s f.a a s1 ∧ ReadsB s1 f b s2 ∧ Reads s2 f.c c s3
      ∧ Writes s3 f.d (g a b c) t := by
  constructor
  · intro h
    simp only [State.tern, bind, Except.bind] at h
    split at h
    · cases h
    · rename_i v hv
      split at h
      · cases h
      · rename_i u hu
        split at h
        · cases h
        · rename_i w hw
          exact ⟨v.1, v.2, u.1, u.2, w.1, w.2, readSrc_iff.mp hv, opndB_iff.mp hu, readSrc_iff.mp hw, writeDst_iff.mp h⟩
  · rintro ⟨a, s1, b, s2, c, s3, ha, hb, hc, hd⟩
    exact tern_done ha hb hc hd

/-! Ends of an instruction. -/

@[simp] theorem ended_fate {t : State} : (ended t).cx.fate = .done := rfl

/-- A trap leaves the fate trapped, or stalled while its vector entry cannot be read (21 R398). -/
theorem takeTrap_fate {s s0 : State} {tr : Trap} {keep : Bool} {opc : Nat} :
    (s.takeTrap s0 tr keep opc).cx.fate = .trapped ∨ (s.takeTrap s0 tr keep opc).cx.fate = .stalled := by
  unfold State.takeTrap
  split
  · exact .inr rfl
  · exact .inl rfl

/-- An instruction has completed exactly when its body has succeeded, and its effect is the body's. -/
theorem finish_completed {s t : State} {opc : Nat} {e : Eff} (h : s.finish opc e = .next t) (hd : t.cx.fate = .done) :
    ∃ u, e = .ok u ∧ t = ended u := by
  unfold State.finish at h
  split at h <;> first
    | (cases h; exact ⟨_, rfl, rfl⟩)
    | (cases h; cases hd)
    | (cases h
       rcases takeTrap_fate (s := _) (s0 := s) (tr := _) (keep := _) (opc := opc) with h | h
       all_goals exact absurd (hd.symm.trans h) (by decide))
    | cases h

/-- An I- or X-class instruction outside a U group that completes: its predicate was false and nothing has changed, or
its body has succeeded (04 R102). -/
theorem runI_completed {s t : State} {opc : Nat} {hd : Hd} {ds : List Reg} {body : State → Eff} (hu : hd.u = false)
    (h : s.runI opc hd ds body = .next t) (hf : t.cx.fate = .done) :
    s.ready = true ∧ (((s.pred hd).getLsbD 0 = false ∧ t = s.setFate .done)
      ∨ ((s.pred hd).getLsbD 0 = true ∧ ∃ u, body s = .ok u ∧ t = ended u)) := by
  unfold State.runI at h
  cases hr : s.ready
  · simp [hr] at h
  · cases hp : (s.pred hd).getLsbD 0
    · simp only [hr, hp, Bool.not_true, Bool.not_false] at h
      exact ⟨rfl, .inl ⟨rfl, by cases h; rfl⟩⟩
    · simp only [hr, hp, hu, Bool.not_true] at h
      exact ⟨rfl, .inr ⟨rfl, finish_completed h hf⟩⟩

/-- A V-class instruction that completes: its body has succeeded. -/
theorem runV_completed {s t : State} {opc : Nat} {body : State → Eff} (h : s.runV opc body = .next t)
    (hf : t.cx.fate = .done) : s.ready = true ∧ ∃ u, body s = .ok u ∧ t = ended u := by
  unfold State.runV at h
  cases hr : s.ready
  · simp [hr] at h
  · simp only [hr, Bool.not_true] at h
    exact ⟨rfl, finish_completed h hf⟩

/-- A body that takes a cause: its instruction has no other effect (21 R398). -/
theorem runI_trap {s : State} {opc : Nat} {hd : Hd} {ds : List Reg} {body : State → Eff} {tr : Trap} (h : Runs s hd)
    (hb : body s = .error (.trap tr)) : s.runI opc hd ds body = .next (s.takeTrap s tr false opc) := by
  rw [runI_of_runs h, hb]
  rfl

theorem runV_trap {s : State} {opc : Nat} {body : State → Eff} {tr : Trap} (h : s.ready = true)
    (hb : body s = .error (.trap tr)) : s.runV opc body = .next (s.takeTrap s tr false opc) := by
  simp only [State.runV, h, hb]
  rfl

/-- A body that enters a wait: the instruction is held (02 R64), and the q entries that it took are kept (21 R398). -/
theorem runI_held {s u : State} {opc : Nat} {hd : Hd} {ds : List Reg} {body : State → Eff} (h : Runs s hd)
    (hb : body s = .error (.hold u)) : s.runI opc hd ds body = .next ((u.keepQ s).setFate .held) := by
  rw [runI_of_runs h, hb]
  rfl

/-- The end of an instruction changes nothing but its fate. -/
theorem ended_eq {t : State} : ended t = { t with cx := (ended t).cx } := rfl

@[simp] theorem ended_mem {t : State} : (ended t).mem = t.mem := rfl

@[simp] theorem ended_tasks {t : State} : (ended t).tasks = t.tasks := rfl

@[simp] theorem ended_cur {t : State} : (ended t).cur = t.cur := rfl

end Sys2Proof.Machine
end

