-- ==== Sys2Proof/Laws/PerInstr.lean ====
section
/-! SUPPORT. Statements made per instruction. `Opcode`: the word of an instruction has an opcode of the opcode map (04
R105). -/

namespace Sys2Proof.Laws.Opcode

open Sys2Proof

/-- An opcode of the opcode map. -/
def assigned (opc : Nat) : Bool := Machine.opcodeMap.any fun g => g.2.any fun fn => opc == g.1 * 64 + fn

def Statement (i : Instr) : Prop := ∀ w, encode i = some w → assigned (opcOf w).toNat = true

theorem of_pack {w : IWord} {opc : Nat} (h : opcOf w = BitVec.ofNat 12 opc)
    (ha : assigned (BitVec.ofNat 12 opc).toNat = true) : assigned (opcOf w).toNat = true := by rw [h]; exact ha

theorem of_none {i : Instr} (h : encode i = none) : Statement i := fun _ hw => by simp [h] at hw

theorem illegalOpcodeFff (x) : Statement (.illegalOpcodeFff x) := fun w h => by
  simp only [encode, Option.some.injEq] at h
  subst h
  rw [opcOf, BitVec.extractLsb'_append_eq_of_le (by decide)]
  exact of_pack (w := BitVec.ofNat 12 0xFFF ++ (0 : BitVec 84)) (opc := 0xFFF) (by decide) (by decide)
theorem nop (f) : Statement (.nop f) := fun _ h => of_pack (opc := 0x000) (by cases h; simp) (by decide)
theorem add (f) : Statement (.add f) := fun _ h => of_pack (opc := 0x001) (by cases h; simp) (by decide)
theorem sub (f) : Statement (.sub f) := fun _ h => of_pack (opc := 0x002) (by cases h; simp) (by decide)
theorem mul (f) : Statement (.mul f) := fun _ h => of_pack (opc := 0x003) (by cases h; simp) (by decide)
theorem mulh (f) : Statement (.mulh f) := fun _ h => of_pack (opc := 0x004) (by cases h; simp) (by decide)
theorem mad (f) : Statement (.mad f) := fun _ h => of_pack (opc := 0x005) (by cases h; simp) (by decide)
theorem div (f) : Statement (.div f) := fun _ h => of_pack (opc := 0x006) (by cases h; simp) (by decide)
theorem rem (f) : Statement (.rem f) := fun _ h => of_pack (opc := 0x007) (by cases h; simp) (by decide)
theorem min (f) : Statement (.min f) := fun _ h => of_pack (opc := 0x008) (by cases h; simp) (by decide)
theorem max (f) : Statement (.max f) := fun _ h => of_pack (opc := 0x009) (by cases h; simp) (by decide)
theorem and (f) : Statement (.and f) := fun _ h => of_pack (opc := 0x040) (by cases h; simp) (by decide)
theorem or (f) : Statement (.or f) := fun _ h => of_pack (opc := 0x041) (by cases h; simp) (by decide)
theorem xor (f) : Statement (.xor f) := fun _ h => of_pack (opc := 0x042) (by cases h; simp) (by decide)
theorem andn (f) : Statement (.andn f) := fun _ h => of_pack (opc := 0x043) (by cases h; simp) (by decide)
theorem orn (f) : Statement (.orn f) := fun _ h => of_pack (opc := 0x044) (by cases h; simp) (by decide)
theorem shl (f) : Statement (.shl f) := fun _ h => of_pack (opc := 0x045) (by cases h; simp) (by decide)
theorem shr (f) : Statement (.shr f) := fun _ h => of_pack (opc := 0x046) (by cases h; simp) (by decide)
theorem sar (f) : Statement (.sar f) := fun _ h => of_pack (opc := 0x047) (by cases h; simp) (by decide)
theorem rol (f) : Statement (.rol f) := fun _ h => of_pack (opc := 0x048) (by cases h; simp) (by decide)
theorem ror (f) : Statement (.ror f) := fun _ h => of_pack (opc := 0x049) (by cases h; simp) (by decide)
theorem clz (f) : Statement (.clz f) := fun _ h => of_pack (opc := 0x080) (by cases h; simp) (by decide)
theorem ctz (f) : Statement (.ctz f) := fun _ h => of_pack (opc := 0x081) (by cases h; simp) (by decide)
theorem popc (f) : Statement (.popc f) := fun _ h => of_pack (opc := 0x082) (by cases h; simp) (by decide)
theorem brev (f) : Statement (.brev f) := fun _ h => of_pack (opc := 0x083) (by cases h; simp) (by decide)
theorem bswap (f) : Statement (.bswap f) := fun _ h => of_pack (opc := 0x084) (by cases h; simp) (by decide)
theorem set (f) : Statement (.set f) := fun _ h => of_pack (opc := 0x085) (by cases h; simp) (by decide)
theorem sel (f) : Statement (.sel f) := fun _ h => of_pack (opc := 0x086) (by cases h; simp) (by decide)
theorem sext (f) : Statement (.sext f) := fun _ h => of_pack (opc := 0x087) (by cases h; simp) (by decide)
theorem zext (f) : Statement (.zext f) := fun _ h => of_pack (opc := 0x088) (by cases h; simp) (by decide)
theorem lea (f) : Statement (.lea f) := fun _ h => of_pack (opc := 0x100) (by cases h; simp) (by decide)
theorem bfx (f) : Statement (.bfx f) := fun _ h => of_pack (opc := 0x101) (by cases h; simp) (by decide)
theorem bfi (f) : Statement (.bfi f) := fun _ h => of_pack (opc := 0x102) (by cases h; simp) (by decide)
theorem zord (f) : Statement (.zord f) := fun _ h => of_pack (opc := 0x103) (by cases h; simp) (by decide)
theorem zdec (f) : Statement (.zdec f) := fun _ h => of_pack (opc := 0x104) (by cases h; simp) (by decide)
theorem mov (f) : Statement (.mov f) := fun _ h => of_pack (opc := 0x140) (by cases h; simp) (by decide)
theorem li (f) : Statement (.li f) := fun _ h => of_pack (opc := 0x141) (by cases h; simp) (by decide)
theorem jmp (f) : Statement (.jmp f) := fun _ h => of_pack (opc := 0x180) (by cases h; simp) (by decide)
theorem call (f) : Statement (.call f) := fun _ h => of_pack (opc := 0x180) (by cases h; simp) (by decide)
theorem loop (f) : Statement (.loop f) := fun _ h => of_pack (opc := 0x181) (by cases h; simp) (by decide)
theorem brEq (f) : Statement (.brEq f) := fun _ h => of_pack (opc := 0x190) (by cases h; simp) (by decide)
theorem brNe (f) : Statement (.brNe f) := fun _ h => of_pack (opc := 0x192) (by cases h; simp) (by decide)
theorem brLtZ64 (f) : Statement (.brLtZ64 f) := fun _ h => of_pack (opc := 0x194) (by cases h; simp) (by decide)
theorem brLtI64 (f) : Statement (.brLtI64 f) := fun _ h => of_pack (opc := 0x195) (by cases h; simp) (by decide)
theorem brGeZ64 (f) : Statement (.brGeZ64 f) := fun _ h => of_pack (opc := 0x196) (by cases h; simp) (by decide)
theorem brGeI64 (f) : Statement (.brGeI64 f) := fun _ h => of_pack (opc := 0x197) (by cases h; simp) (by decide)
theorem brLeZ64 (f) : Statement (.brLeZ64 f) := fun _ h => of_pack (opc := 0x198) (by cases h; simp) (by decide)
theorem brLeI64 (f) : Statement (.brLeI64 f) := fun _ h => of_pack (opc := 0x199) (by cases h; simp) (by decide)
theorem brGtZ64 (f) : Statement (.brGtZ64 f) := fun _ h => of_pack (opc := 0x19A) (by cases h; simp) (by decide)
theorem brGtI64 (f) : Statement (.brGtI64 f) := fun _ h => of_pack (opc := 0x19B) (by cases h; simp) (by decide)
theorem jr (f) : Statement (.jr f) := fun _ h => of_pack (opc := 0x1C0) (by cases h; simp) (by decide)
theorem ret (f) : Statement (.ret f) := fun _ h => of_pack (opc := 0x1C1) (by cases h; simp) (by decide)
theorem trapi (f) : Statement (.trapi f) := fun _ h => of_pack (opc := 0x1C2) (by cases h; simp) (by decide)
theorem exit (f) : Statement (.exit f) := fun _ h => of_pack (opc := 0x1C3) (by cases h; simp) (by decide)
theorem yield (f) : Statement (.yield f) := fun _ h => of_pack (opc := 0x1C4) (by cases h; simp) (by decide)
theorem ld (f) : Statement (.ld f) := fun _ h => of_pack (opc := 0x200) (by cases h; simp) (by decide)
theorem st (f) : Statement (.st f) := fun _ h => of_pack (opc := 0x201) (by cases h; simp) (by decide)
theorem ldp (f) : Statement (.ldp f) := fun _ h => of_pack (opc := 0x202) (by cases h; simp) (by decide)
theorem stp (f) : Statement (.stp f) := fun _ h => of_pack (opc := 0x203) (by cases h; simp) (by decide)
theorem pref (f) : Statement (.pref f) := fun _ h => of_pack (opc := 0x240) (by cases h; simp) (by decide)
theorem wbl (f) : Statement (.wbl f) := fun _ h => of_pack (opc := 0x241) (by cases h; simp) (by decide)
theorem invl (f) : Statement (.invl f) := fun _ h => of_pack (opc := 0x242) (by cases h; simp) (by decide)
theorem zerol (f) : Statement (.zerol f) := fun _ h => of_pack (opc := 0x243) (by cases h; simp) (by decide)
theorem pin (f) : Statement (.pin f) := fun _ h => of_pack (opc := 0x280) (by cases h; simp) (by decide)
theorem unpin (f) : Statement (.unpin f) := fun _ h => of_pack (opc := 0x281) (by cases h; simp) (by decide)
theorem amoAdd (f) : Statement (.amoAdd f) := fun _ h => of_pack (opc := 0x300) (by cases h; simp) (by decide)
theorem amoAnd (f) : Statement (.amoAnd f) := fun _ h => of_pack (opc := 0x301) (by cases h; simp) (by decide)
theorem amoOr (f) : Statement (.amoOr f) := fun _ h => of_pack (opc := 0x302) (by cases h; simp) (by decide)
theorem amoXor (f) : Statement (.amoXor f) := fun _ h => of_pack (opc := 0x303) (by cases h; simp) (by decide)
theorem amoSmin (f) : Statement (.amoSmin f) := fun _ h => of_pack (opc := 0x304) (by cases h; simp) (by decide)
theorem amoSmax (f) : Statement (.amoSmax f) := fun _ h => of_pack (opc := 0x305) (by cases h; simp) (by decide)
theorem amoZmin (f) : Statement (.amoZmin f) := fun _ h => of_pack (opc := 0x306) (by cases h; simp) (by decide)
theorem amoZmax (f) : Statement (.amoZmax f) := fun _ h => of_pack (opc := 0x307) (by cases h; simp) (by decide)
theorem amoSwap (f) : Statement (.amoSwap f) := fun _ h => of_pack (opc := 0x308) (by cases h; simp) (by decide)
theorem amoFaddFp32 (f) : Statement (.amoFaddFp32 f) := fun _ h => of_pack (opc := 0x309) (by cases h; simp) (by decide)
theorem amoFmaxFp32 (f) : Statement (.amoFmaxFp32 f) := fun _ h => of_pack (opc := 0x30A) (by cases h; simp) (by decide)
theorem cas (f) : Statement (.cas f) := fun _ h => of_pack (opc := 0x340) (by cases h; simp) (by decide)
theorem mcas (f) : Statement (.mcas f) := fun _ h => of_pack (opc := 0x341) (by cases h; simp) (by decide)
theorem fence (f) : Statement (.fence f) := fun _ h => of_pack (opc := 0x342) (by cases h; simp) (by decide)
theorem iold (f) : Statement (.iold f) := fun _ h => of_pack (opc := 0x380) (by cases h; simp) (by decide)
theorem iost (f) : Statement (.iost f) := fun _ h => of_pack (opc := 0x381) (by cases h; simp) (by decide)
theorem vadd (f) : Statement (.vadd f) := fun _ h => of_pack (opc := 0x400) (by cases h; simp) (by decide)
theorem vsub (f) : Statement (.vsub f) := fun _ h => of_pack (opc := 0x401) (by cases h; simp) (by decide)
theorem vmul (f) : Statement (.vmul f) := fun _ h => of_pack (opc := 0x402) (by cases h; simp) (by decide)
theorem vfma (f) : Statement (.vfma f) := fun _ h => of_pack (opc := 0x403) (by cases h; simp) (by decide)
theorem vfms (f) : Statement (.vfms f) := fun _ h => of_pack (opc := 0x404) (by cases h; simp) (by decide)
theorem vfnma (f) : Statement (.vfnma f) := fun _ h => of_pack (opc := 0x405) (by cases h; simp) (by decide)
theorem vmin (f) : Statement (.vmin f) := fun _ h => of_pack (opc := 0x406) (by cases h; simp) (by decide)
theorem vmax (f) : Statement (.vmax f) := fun _ h => of_pack (opc := 0x407) (by cases h; simp) (by decide)
theorem vabs (f) : Statement (.vabs f) := fun _ h => of_pack (opc := 0x408) (by cases h; simp) (by decide)
theorem vneg (f) : Statement (.vneg f) := fun _ h => of_pack (opc := 0x409) (by cases h; simp) (by decide)
theorem vabsmax (f) : Statement (.vabsmax f) := fun _ h => of_pack (opc := 0x40A) (by cases h; simp) (by decide)
theorem vdiv (f) : Statement (.vdiv f) := fun _ h => of_pack (opc := 0x440) (by cases h; simp) (by decide)
theorem vsqrt (f) : Statement (.vsqrt f) := fun _ h => of_pack (opc := 0x441) (by cases h; simp) (by decide)
theorem vrcp (f) : Statement (.vrcp f) := fun _ h => of_pack (opc := 0x442) (by cases h; simp) (by decide)
theorem vrsq (f) : Statement (.vrsq f) := fun _ h => of_pack (opc := 0x443) (by cases h; simp) (by decide)
theorem vexp2 (f) : Statement (.vexp2 f) := fun _ h => of_pack (opc := 0x444) (by cases h; simp) (by decide)
theorem vlog2 (f) : Statement (.vlog2 f) := fun _ h => of_pack (opc := 0x445) (by cases h; simp) (by decide)
theorem vscale (f) : Statement (.vscale f) := fun _ h => of_pack (opc := 0x446) (by cases h; simp) (by decide)
theorem vclass (f) : Statement (.vclass f) := fun _ h => of_pack (opc := 0x480) (by cases h; simp) (by decide)
theorem vcmp (f) : Statement (.vcmp f) := fun _ h => of_pack (opc := 0x481) (by cases h; simp) (by decide)
theorem vsel (f) : Statement (.vsel f) := fun _ h => of_pack (opc := 0x482) (by cases h; simp) (by decide)
theorem vcvt (f) : Statement (.vcvt f) := fun _ h => of_pack (opc := 0x4C0) (by cases h; simp) (by decide)
theorem vqnt (f) : Statement (.vqnt f) := fun _ h => of_pack (opc := 0x4C1) (by cases h; simp) (by decide)
theorem vqntSout (f) : Statement (.vqntSout f) := fun _ h => of_pack (opc := 0x4C1) (by cases h; simp) (by decide)
theorem vdqnt (f) : Statement (.vdqnt f) := fun _ h => of_pack (opc := 0x4C2) (by cases h; simp) (by decide)
theorem viadd (f) : Statement (.viadd f) := fun _ h => of_pack (opc := 0x600) (by cases h; simp) (by decide)
theorem visub (f) : Statement (.visub f) := fun _ h => of_pack (opc := 0x601) (by cases h; simp) (by decide)
theorem vimul (f) : Statement (.vimul f) := fun _ h => of_pack (opc := 0x602) (by cases h; simp) (by decide)
theorem vimin (f) : Statement (.vimin f) := fun _ h => of_pack (opc := 0x603) (by cases h; simp) (by decide)
theorem vimax (f) : Statement (.vimax f) := fun _ h => of_pack (opc := 0x604) (by cases h; simp) (by decide)
theorem vand (f) : Statement (.vand f) := fun _ h => of_pack (opc := 0x640) (by cases h; simp) (by decide)
theorem vor (f) : Statement (.vor f) := fun _ h => of_pack (opc := 0x641) (by cases h; simp) (by decide)
theorem vxor (f) : Statement (.vxor f) := fun _ h => of_pack (opc := 0x642) (by cases h; simp) (by decide)
theorem vshl (f) : Statement (.vshl f) := fun _ h => of_pack (opc := 0x643) (by cases h; simp) (by decide)
theorem vshr (f) : Statement (.vshr f) := fun _ h => of_pack (opc := 0x644) (by cases h; simp) (by decide)
theorem vsar (f) : Statement (.vsar f) := fun _ h => of_pack (opc := 0x645) (by cases h; simp) (by decide)
theorem vld (f) : Statement (.vld f) := fun _ h => of_pack (opc := 0x700) (by cases h; simp) (by decide)
theorem vst (f) : Statement (.vst f) := fun _ h => of_pack (opc := 0x701) (by cases h; simp) (by decide)
theorem vlds (f) : Statement (.vlds f) := fun _ h => of_pack (opc := 0x702) (by cases h; simp) (by decide)
theorem vgath (f) : Statement (.vgath f) := fun _ h => of_pack (opc := 0x703) (by cases h; simp) (by decide)
theorem vscat (f) : Statement (.vscat f) := fun _ h => of_pack (opc := 0x704) (by cases h; simp) (by decide)
theorem vbcast (f) : Statement (.vbcast f) := fun _ h => of_pack (opc := 0x740) (by cases h; simp) (by decide)
theorem vext (f) : Statement (.vext f) := fun _ h => of_pack (opc := 0x741) (by cases h; simp) (by decide)
theorem vins (f) : Statement (.vins f) := fun _ h => of_pack (opc := 0x742) (by cases h; simp) (by decide)
theorem vperm (f) : Statement (.vperm f) := fun _ h => of_pack (opc := 0x743) (by cases h; simp) (by decide)
theorem vshuf (f) : Statement (.vshuf f) := fun _ h => of_pack (opc := 0x744) (by cases h; simp) (by decide)
theorem viota (f) : Statement (.viota f) := fun _ h => of_pack (opc := 0x745) (by cases h; simp) (by decide)
theorem vred (f) : Statement (.vred f) := fun _ h => of_pack (opc := 0x746) (by cases h; simp) (by decide)
theorem vscan (f) : Statement (.vscan f) := fun _ h => of_pack (opc := 0x747) (by cases h; simp) (by decide)
theorem vmov (f) : Statement (.vmov f) := fun _ h => of_pack (opc := 0x748) (by cases h; simp) (by decide)
theorem kand (f) : Statement (.kand f) := fun _ h => of_pack (opc := 0x780) (by cases h; simp) (by decide)
theorem kor (f) : Statement (.kor f) := fun _ h => of_pack (opc := 0x781) (by cases h; simp) (by decide)
theorem kxor (f) : Statement (.kxor f) := fun _ h => of_pack (opc := 0x782) (by cases h; simp) (by decide)
theorem knot (f) : Statement (.knot f) := fun _ h => of_pack (opc := 0x783) (by cases h; simp) (by decide)
theorem kpop (f) : Statement (.kpop f) := fun _ h => of_pack (opc := 0x784) (by cases h; simp) (by decide)
theorem kfirst (f) : Statement (.kfirst f) := fun _ h => of_pack (opc := 0x785) (by cases h; simp) (by decide)
theorem kmov (f) : Statement (.kmov f) := fun _ h => of_pack (opc := 0x786) (by cases h; simp) (by decide)
theorem agen (f) : Statement (.agen f) := fun _ h => of_pack (opc := 0x7C0) (by cases h; simp) (by decide)
theorem qbind (f) : Statement (.qbind f) := fun _ h => of_pack (opc := 0x7C1) (by cases h; simp) (by decide)
theorem qfree (f) : Statement (.qfree f) := fun _ h => of_pack (opc := 0x7C2) (by cases h; simp) (by decide)
theorem rep (f) : Statement (.rep f) := fun _ h => of_pack (opc := 0x7C3) (by cases h; simp) (by decide)
theorem mldb (f) : Statement (.mldb f) := fun _ h => of_pack (opc := 0x800) (by cases h; simp) (by decide)
theorem mldc (f) : Statement (.mldc f) := fun _ h => of_pack (opc := 0x801) (by cases h; simp) (by decide)
theorem mknot (f) : Statement (.mknot f) := fun _ h => of_pack (opc := 0x802) (by cases h; simp) (by decide)
theorem mlds (f) : Statement (.mlds f) := fun _ h => of_pack (opc := 0x803) (by cases h; simp) (by decide)
theorem mma (f) : Statement (.mma f) := fun _ h => of_pack (opc := 0x840) (by cases h; simp) (by decide)
theorem mmac (f) : Statement (.mmac f) := fun _ h => of_pack (opc := 0x841) (by cases h; simp) (by decide)
theorem mspl (f) : Statement (.mspl f) := fun _ h => of_pack (opc := 0x842) (by cases h; simp) (by decide)
theorem msdx (f) : Statement (.msdx f) := fun _ h => of_pack (opc := 0x880) (by cases h; simp) (by decide)
theorem msgrad (f) : Statement (.msgrad f) := fun _ h => of_pack (opc := 0x881) (by cases h; simp) (by decide)
theorem mrefine (f) : Statement (.mrefine f) := fun _ h => of_pack (opc := 0x882) (by cases h; simp) (by decide)
theorem mzeroSag (f) : Statement (.mzeroSag f) := fun _ h => of_pack (opc := 0x883) (by cases h; simp) (by decide)
theorem mzeroBat (f) : Statement (.mzeroBat f) := fun _ h => of_pack (opc := 0x883) (by cases h; simp) (by decide)
theorem mzeroRib (f) : Statement (.mzeroRib f) := fun _ h => of_pack (opc := 0x883) (by cases h; simp) (by decide)
theorem mrd (f) : Statement (.mrd f) := fun _ h => of_pack (opc := 0x8C0) (by cases h; simp) (by decide)
theorem mwr (f) : Statement (.mwr f) := fun _ h => of_pack (opc := 0x8C1) (by cases h; simp) (by decide)
theorem mdrain (f) : Statement (.mdrain f) := fun _ h => of_pack (opc := 0x8C2) (by cases h; simp) (by decide)
theorem mstat (f) : Statement (.mstat f) := fun _ h => of_pack (opc := 0x8C3) (by cases h; simp) (by decide)
theorem cpy (f) : Statement (.cpy f) := fun _ h => of_pack (opc := 0x900) (by cases h; simp) (by decide)
theorem cpyr (f) : Statement (.cpyr f) := fun _ h => of_pack (opc := 0x901) (by cases h; simp) (by decide)
theorem cpyqf (f) : Statement (.cpyqf f) := fun _ h => of_pack (opc := 0x902) (by cases h; simp) (by decide)
theorem sleept (f) : Statement (.sleept f) := fun _ h => of_pack (opc := 0x940) (by cases h; simp) (by decide)
theorem cinit (f) : Statement (.cinit f) := fun _ h => of_pack (opc := 0x980) (by cases h; simp) (by decide)
theorem arrive (f) : Statement (.arrive f) := fun _ h => of_pack (opc := 0x981) (by cases h; simp) (by decide)
theorem arriveW (f) : Statement (.arriveW f) := fun _ h => of_pack (opc := 0x981) (by cases h; simp) (by decide)
theorem arriveRmt (f) : Statement (.arriveRmt f) := fun _ h => of_pack (opc := 0x981) (by cases h; simp) (by decide)
theorem expect (f) : Statement (.expect f) := fun _ h => of_pack (opc := 0x982) (by cases h; simp) (by decide)
theorem cwait (f) : Statement (.cwait f) := fun _ h => of_pack (opc := 0x983) (by cases h; simp) (by decide)
theorem ctest (f) : Statement (.ctest f) := fun _ h => of_pack (opc := 0x984) (by cases h; simp) (by decide)
theorem evsig (f) : Statement (.evsig f) := fun _ h => of_pack (opc := 0x985) (by cases h; simp) (by decide)
theorem evsigRmt (f) : Statement (.evsigRmt f) := fun _ h => of_pack (opc := 0x985) (by cases h; simp) (by decide)
theorem mutexl (f) : Statement (.mutexl f) := fun _ h => of_pack (opc := 0x986) (by cases h; simp) (by decide)
theorem mutexu (f) : Statement (.mutexu f) := fun _ h => of_pack (opc := 0x987) (by cases h; simp) (by decide)
theorem msend (f) : Statement (.msend f) := fun _ h => of_pack (opc := 0x9C0) (by cases h; simp) (by decide)
theorem mtake (f) : Statement (.mtake f) := fun _ h => of_pack (opc := 0x9C1) (by cases h; simp) (by decide)
theorem mpeek (f) : Statement (.mpeek f) := fun _ h => of_pack (opc := 0x9C2) (by cases h; simp) (by decide)
theorem mwaitf (f) : Statement (.mwaitf f) := fun _ h => of_pack (opc := 0x9C3) (by cases h; simp) (by decide)
theorem spawn (f) : Statement (.spawn f) := fun _ h => of_pack (opc := 0xA00) (by cases h; simp) (by decide)
theorem join (f) : Statement (.join f) := fun _ h => of_pack (opc := 0xA01) (by cases h; simp) (by decide)
theorem gang (f) : Statement (.gang f) := fun _ h => of_pack (opc := 0xA02) (by cases h; simp) (by decide)
theorem rinit (f) : Statement (.rinit f) := fun _ h => of_pack (opc := 0xA03) (by cases h; simp) (by decide)
theorem rtake (f) : Statement (.rtake f) := fun _ h => of_pack (opc := 0xA04) (by cases h; simp) (by decide)
theorem tself (f) : Statement (.tself f) := fun _ h => of_pack (opc := 0xA05) (by cases h; simp) (by decide)
theorem sign (f) : Statement (.sign f) := fun _ h => of_pack (opc := 0xA40) (by cases h; simp) (by decide)
theorem step (f) : Statement (.step f) := fun _ h => of_pack (opc := 0xA41) (by cases h; simp) (by decide)
theorem dissolve (f) : Statement (.dissolve f) := fun _ h => of_pack (opc := 0xA42) (by cases h; simp) (by decide)
theorem ckpt (f) : Statement (.ckpt f) := fun _ h => of_pack (opc := 0xA43) (by cases h; simp) (by decide)
theorem abort (f) : Statement (.abort f) := fun _ h => of_pack (opc := 0xA44) (by cases h; simp) (by decide)
theorem srd (f) : Statement (.srd f) := fun _ h => of_pack (opc := 0xF00) (by cases h; simp) (by decide)
theorem swr (f) : Statement (.swr f) := fun _ h => of_pack (opc := 0xF01) (by cases h; simp) (by decide)
theorem eret (f) : Statement (.eret f) := fun _ h => of_pack (opc := 0xF02) (by cases h; simp) (by decide)
theorem tlbiDom (f) : Statement (.tlbiDom f) := fun _ h => of_pack (opc := 0xF03) (by cases h; simp) (by decide)
theorem tlbiPage (f) : Statement (.tlbiPage f) := fun _ h => of_pack (opc := 0xF03) (by cases h; simp) (by decide)
theorem tlbiRange (f) : Statement (.tlbiRange f) := fun _ h => of_pack (opc := 0xF03) (by cases h; simp) (by decide)
theorem tlbiAll (f) : Statement (.tlbiAll f) := fun _ h => of_pack (opc := 0xF03) (by cases h; simp) (by decide)
theorem preemptTask (f) : Statement (.preemptTask f) := fun _ h => of_pack (opc := 0xF40) (by cases h; simp) (by decide)
theorem preemptGang (f) : Statement (.preemptGang f) := fun _ h => of_pack (opc := 0xF40) (by cases h; simp) (by decide)
theorem preemptCompact (f) : Statement (.preemptCompact f) := fun _ h => of_pack (opc := 0xF40) (by cases h; simp) (by decide)
theorem resumeTask (f) : Statement (.resumeTask f) := fun _ h => of_pack (opc := 0xF41) (by cases h; simp) (by decide)
theorem resumeGang (f) : Statement (.resumeGang f) := fun _ h => of_pack (opc := 0xF41) (by cases h; simp) (by decide)
theorem resumeCompact (f) : Statement (.resumeCompact f) := fun _ h => of_pack (opc := 0xF41) (by cases h; simp) (by decide)
theorem haltg (f) : Statement (.haltg f) := fun _ h => of_pack (opc := 0xF42) (by cases h; simp) (by decide)
theorem salvage (f) : Statement (.salvage f) := fun _ h => of_pack (opc := 0xF43) (by cases h; simp) (by decide)
theorem uGroupComplete (x0) (x1) (x2) : Statement (.uGroupComplete x0 x1 x2) := of_none rfl
theorem asyncCauseTaken (x0) : Statement (.asyncCauseTaken x0) := of_none rfl
theorem breakpoint (x0) : Statement (.breakpoint x0) := of_none rfl
theorem singleStepTrap (x0) : Statement (.singleStepTrap x0) := of_none rfl
theorem fetchParityRefetch (x0) : Statement (.fetchParityRefetch x0) := of_none rfl
theorem frameLineFetch (x0) (x1) : Statement (.frameLineFetch x0 x1) := of_none rfl
theorem streamGroupRead (x0) (x1) : Statement (.streamGroupRead x0 x1) := of_none rfl
theorem streamGroupWrite (x0) (x1) : Statement (.streamGroupWrite x0 x1) := of_none rfl
theorem recordDispatch (x0) (x1) : Statement (.recordDispatch x0 x1) := of_none rfl
theorem queueAging (x0) (x1) : Statement (.queueAging x0 x1) := of_none rfl
theorem joinHeldPush (x0) : Statement (.joinHeldPush x0) := of_none rfl
theorem gangWake (x0) (x1) : Statement (.gangWake x0 x1) := of_none rfl
theorem gangStart (x0) : Statement (.gangStart x0) := of_none rfl
theorem wireRequestServe (x0) (x1) : Statement (.wireRequestServe x0 x1) := of_none rfl
theorem waitDeadline (x0) : Statement (.waitDeadline x0) := of_none rfl
theorem sleeptExpiry (x0) : Statement (.sleeptExpiry x0) := of_none rfl
theorem wheelCommandStart (x0) : Statement (.wheelCommandStart x0) := of_none rfl
theorem wheelCommandComplete (x0) (x1) : Statement (.wheelCommandComplete x0 x1) := of_none rfl
theorem damperGrant (x0) : Statement (.damperGrant x0) := of_none rfl
theorem copyStart (x0) (x1) : Statement (.copyStart x0 x1) := of_none rfl
theorem copyComplete (x0) (x1) : Statement (.copyComplete x0 x1) := of_none rfl
theorem latePromiseExpiry (x0) (x1) : Statement (.latePromiseExpiry x0 x1) := of_none rfl
theorem cpyqfFenceComplete (x0) (x1) : Statement (.cpyqfFenceComplete x0 x1) := of_none rfl
theorem pendingByteDecrement (x0) : Statement (.pendingByteDecrement x0) := of_none rfl
theorem remoteArrival (x0) : Statement (.remoteArrival x0) := of_none rfl
theorem remoteSignal (x0) : Statement (.remoteSignal x0) := of_none rfl
theorem messageDelivery (x0) : Statement (.messageDelivery x0) := of_none rfl
theorem messageAck (x0) : Statement (.messageAck x0) := of_none rfl
theorem ioldCompletion (x0) (x1) (x2) : Statement (.ioldCompletion x0 x1 x2) := of_none rfl
theorem ioldTimeout (x0) : Statement (.ioldTimeout x0) := of_none rfl
theorem mcasLockGrant (x0) : Statement (.mcasLockGrant x0) := of_none rfl
theorem dirRead (x0) (x1) : Statement (.dirRead x0 x1) := of_none rfl
theorem dirReadForOwnership (x0) (x1) : Statement (.dirReadForOwnership x0 x1) := of_none rfl
theorem dirUpgrade (x0) (x1) : Statement (.dirUpgrade x0 x1) := of_none rfl
theorem dirFarOperation (x0) (x1) : Statement (.dirFarOperation x0 x1) := of_none rfl
theorem dirWriteback (x0) (x1) : Statement (.dirWriteback x0 x1) := of_none rfl
theorem dirInvlEvict (x0) (x1) : Statement (.dirInvlEvict x0 x1) := of_none rfl
theorem forwardedPinAccess (x0) (x1) (x2) (x3) : Statement (.forwardedPinAccess x0 x1 x2 x3) := of_none rfl
theorem updatePush (x0) (x1) (x2) (x3) : Statement (.updatePush x0 x1 x2 x3) := of_none rfl
theorem routerCycle (x0) : Statement (.routerCycle x0) := of_none rfl
theorem flitArrival (x0) : Statement (.flitArrival x0) := of_none rfl
theorem throttleWindow (x0) : Statement (.throttleWindow x0) := of_none rfl
theorem slfoldWrite (x0) : Statement (.slfoldWrite x0) := of_none rfl
theorem foldComplete (x0) : Statement (.foldComplete x0) := of_none rfl
theorem homeLossDeclare (x0) : Statement (.homeLossDeclare x0) := of_none rfl
theorem uetPacketReceive (x0) : Statement (.uetPacketReceive x0) := of_none rfl
theorem uetAckReceive (x0) (x1) : Statement (.uetAckReceive x0 x1) := of_none rfl
theorem uetRetransmit (x0) : Statement (.uetRetransmit x0) := of_none rfl
theorem signingComplete (x0) : Statement (.signingComplete x0) := of_none rfl
theorem deviceArrivalReport (x0) (x1) : Statement (.deviceArrivalReport x0 x1) := of_none rfl
theorem planWritePerformed (x0) : Statement (.planWritePerformed x0) := of_none rfl
theorem boundaryBegin (x0) : Statement (.boundaryBegin x0) := of_none rfl
theorem memberRelease (x0) : Statement (.memberRelease x0) := of_none rfl
theorem dissolvingComplete (x0) : Statement (.dissolvingComplete x0) := of_none rfl
theorem abortToken (x0) (x1) : Statement (.abortToken x0 x1) := of_none rfl
theorem cappingWindow (x0) : Statement (.cappingWindow x0) := of_none rfl
theorem telemetryRefresh (x0) : Statement (.telemetryRefresh x0) := of_none rfl
theorem pldmGetSensorReading (x0) : Statement (.pldmGetSensorReading x0) := of_none rfl
theorem pldmKilnlogRead (x0) : Statement (.pldmKilnlogRead x0) := of_none rfl
theorem pklimitWrite (x0) : Statement (.pklimitWrite x0) := of_none rfl
theorem bar2Read (x0) (x1) (x2) : Statement (.bar2Read x0 x1 x2) := of_none rfl
theorem bar2Write (x0) (x1) (x2) : Statement (.bar2Write x0 x1 x2) := of_none rfl
theorem hseqWrite (x0) (x1) (x2) : Statement (.hseqWrite x0 x1 x2) := of_none rfl
theorem dconsWrite (x0) (x1) (x2) : Statement (.dconsWrite x0 x1 x2) := of_none rfl
theorem hconsWrite (x0) (x1) : Statement (.hconsWrite x0 x1) := of_none rfl
theorem dseqWrite (x0) (x1) : Statement (.dseqWrite x0 x1) := of_none rfl
theorem msixUnmask (x0) (x1) : Statement (.msixUnmask x0 x1) := of_none rfl
theorem mbportWrite (x0) (x1) : Statement (.mbportWrite x0 x1) := of_none rfl
theorem bootgo : Statement .bootgo := of_none rfl
theorem bootVerifyDone : Statement .bootVerifyDone := of_none rfl
theorem coldReset : Statement .coldReset := of_none rfl
theorem warmReset : Statement .warmReset := of_none rfl
theorem pcieHotReset (x0) : Statement (.pcieHotReset x0) := of_none rfl
theorem measurementAppend (x0) (x1) : Statement (.measurementAppend x0 x1) := of_none rfl
theorem attestationReport (x0) : Statement (.attestationReport x0) := of_none rfl
theorem devcfgWrite (x0) : Statement (.devcfgWrite x0) := of_none rfl
theorem dqringWrite (x0) (x1) (x2) : Statement (.dqringWrite x0 x1 x2) := of_none rfl
theorem scopeWrite (x0) (x1) : Statement (.scopeWrite x0 x1) := of_none rfl
theorem fpflagsWrite (x0) : Statement (.fpflagsWrite x0) := of_none rfl
theorem wheelwtWrite (x0) : Statement (.wheelwtWrite x0) := of_none rfl
theorem wheelFootprintWrite (x0) (x1) : Statement (.wheelFootprintWrite x0 x1) := of_none rfl
theorem wqstatDiscard : Statement .wqstatDiscard := of_none rfl
theorem cfstatAbandon : Statement .cfstatAbandon := of_none rfl
theorem statusWrite (x0) : Statement (.statusWrite x0) := of_none rfl
theorem uetmapWrite (x0) : Statement (.uetmapWrite x0) := of_none rfl
theorem registerWrite (x0) (x1) : Statement (.registerWrite x0 x1) := of_none rfl
theorem ethernetLinkChange (x0) (x1) : Statement (.ethernetLinkChange x0 x1) := of_none rfl
theorem cleanCopyDrop (x0) (x1) : Statement (.cleanCopyDrop x0 x1) := of_none rfl
theorem bar0MailboxWrite (x0) (x1) (x2) (x3) : Statement (.bar0MailboxWrite x0 x1 x2 x3) := of_none rfl

end Sys2Proof.Laws.Opcode
end

