-- ==== Sys2Proof/Laws/Task.lean ====
section
/-! SUPPORT. What each register update leaves in each field of a task: one lemma per field per update. -/

namespace Sys2Proof.Machine

open Sys2Proof


section

variable {y : Task} {n : BitVec 5} {x : VReg}

@[simp] theorem Task.setV_gen : (y.setV n x).gen = y.gen := rfl
@[simp] theorem Task.setV_dom : (y.setV n x).dom = y.dom := rfl
@[simp] theorem Task.setV_tile : (y.setV n x).tile = y.tile := rfl
@[simp] theorem Task.setV_ctx : (y.setV n x).ctx = y.ctx := rfl
@[simp] theorem Task.setV_keep : (y.setV n x).keep = y.keep := rfl
@[simp] theorem Task.setV_gang : (y.setV n x).gang = y.gang := rfl
@[simp] theorem Task.setV_share : (y.setV n x).share = y.share := rfl
@[simp] theorem Task.setV_run : (y.setV n x).run = y.run := rfl
@[simp] theorem Task.setV_pc : (y.setV n x).pc = y.pc := rfl
@[simp] theorem Task.setV_entered : (y.setV n x).entered = y.entered := rfl
@[simp] theorem Task.setV_s : (y.setV n x).s = y.s := rfl
@[simp] theorem Task.setV_v : (y.setV n x).v = y.v.set n.toNat x := rfl
@[simp] theorem Task.setV_k : (y.setV n x).k = y.k := rfl
@[simp] theorem Task.setV_m : (y.setV n x).m = y.m := rfl
@[simp] theorem Task.setV_full : (y.setV n x).full = y.full := rfl
@[simp] theorem Task.setV_mclk : (y.setV n x).mclk = y.mclk := rfl
@[simp] theorem Task.setV_q : (y.setV n x).q = y.q := rfl
@[simp] theorem Task.setV_gens : (y.setV n x).gens = y.gens := rfl
@[simp] theorem Task.setV_mbox : (y.setV n x).mbox = y.mbox := rfl
@[simp] theorem Task.setV_dead : (y.setV n x).dead = y.dead := rfl
@[simp] theorem Task.setV_reasm : (y.setV n x).reasm = y.reasm := rfl
@[simp] theorem Task.setV_ipc : (y.setV n x).ipc = y.ipc := rfl
@[simp] theorem Task.setV_vpc : (y.setV n x).vpc = y.vpc := rfl
@[simp] theorem Task.setV_status : (y.setV n x).status = y.status := rfl
@[simp] theorem Task.setV_fpflags : (y.setV n x).fpflags = y.fpflags := rfl
@[simp] theorem Task.setV_faultaddr : (y.setV n x).faultaddr = y.faultaddr := rfl
@[simp] theorem Task.setV_faultinfo : (y.setV n x).faultinfo = y.faultinfo := rfl
@[simp] theorem Task.setV_wait : (y.setV n x).wait = y.wait := rfl
@[simp] theorem Task.setV_wake : (y.setV n x).wake = y.wake := rfl
@[simp] theorem Task.setV_deadline : (y.setV n x).deadline = y.deadline := rfl
@[simp] theorem Task.setV_saveext : (y.setV n x).saveext = y.saveext := rfl
@[simp] theorem Task.setV_ucnt : (y.setV n x).ucnt = y.ucnt := rfl
@[simp] theorem Task.setV_hcycle : (y.setV n x).hcycle = y.hcycle := rfl
@[simp] theorem Task.setV_hsent : (y.setV n x).hsent = y.hsent := rfl
@[simp] theorem Task.setV_hrecv : (y.setV n x).hrecv = y.hrecv := rfl
@[simp] theorem Task.setV_hinfo : (y.setV n x).hinfo = y.hinfo := rfl
@[simp] theorem Task.setV_resident : (y.setV n x).resident = y.resident := rfl
@[simp] theorem Task.setV_vq : (y.setV n x).vq = y.vq := rfl
@[simp] theorem Task.setV_saved : (y.setV n x).saved = y.saved := rfl
@[simp] theorem Task.setV_pend : (y.setV n x).pend = y.pend := rfl
@[simp] theorem Task.setV_cfdesc : (y.setV n x).cfdesc = y.cfdesc := rfl
@[simp] theorem Task.setV_cfdone : (y.setV n x).cfdone = y.cfdone := rfl
@[simp] theorem Task.setV_cfstat : (y.setV n x).cfstat = y.cfstat := rfl
@[simp] theorem Task.setV_cfcopy : (y.setV n x).cfcopy = y.cfcopy := rfl
@[simp] theorem Task.setV_apPhase : (y.setV n x).apPhase = y.apPhase := rfl
@[simp] theorem Task.setV_stepping : (y.setV n x).stepping = y.stepping := rfl
@[simp] theorem Task.setV_yielded : (y.setV n x).yielded = y.yielded := rfl
@[simp] theorem Task.setV_wfsag : (y.setV n x).wfsag = y.wfsag := rfl
@[simp] theorem Task.setV_wfbat : (y.setV n x).wfbat = y.wfbat := rfl
@[simp] theorem Task.setV_wfrib : (y.setV n x).wfrib = y.wfrib := rfl
@[simp] theorem Task.setV_wfkn : (y.setV n x).wfkn = y.wfkn := rfl
@[simp] theorem Task.setV_fpend : (y.setV n x).fpend = y.fpend := rfl
@[simp] theorem Task.setV_wstop : (y.setV n x).wstop = y.wstop := rfl
@[simp] theorem Task.setV_werr : (y.setV n x).werr = y.werr := rfl
@[simp] theorem Task.setV_wdone : (y.setV n x).wdone = y.wdone := rfl
@[simp] theorem Task.setV_wdamp : (y.setV n x).wdamp = y.wdamp := rfl
@[simp] theorem Task.setV_wsaved : (y.setV n x).wsaved = y.wsaved := rfl
@[simp] theorem Task.setV_wimage : (y.setV n x).wimage = y.wimage := rfl
@[simp] theorem Task.setV_sends : (y.setV n x).sends = y.sends := rfl
@[simp] theorem Task.setV_mcas : (y.setV n x).mcas = y.mcas := rfl
@[simp] theorem Task.setV_io : (y.setV n x).io = y.io := rfl
@[simp] theorem Task.setV_wire : (y.setV n x).wire = y.wire := rfl
@[simp] theorem Task.setV_signed : (y.setV n x).signed = y.signed := rfl
@[simp] theorem Task.setV_arrivedAt : (y.setV n x).arrivedAt = y.arrivedAt := rfl
@[simp] theorem Task.setV_joinRec : (y.setV n x).joinRec = y.joinRec := rfl
@[simp] theorem Task.setV_joinDie : (y.setV n x).joinDie = y.joinDie := rfl
@[simp] theorem Task.setV_copied : (y.setV n x).copied = y.copied := rfl
@[simp] theorem Task.setV_sysReq : (y.setV n x).sysReq = y.sysReq := rfl
@[simp] theorem Task.setV_halting : (y.setV n x).halting = y.halting := rfl
@[simp] theorem Task.setV_closed : (y.setV n x).closed = y.closed := rfl
@[simp] theorem Task.setV_eretV : (y.setV n x).eretV = y.eretV := rfl
@[simp] theorem Task.setV_party : (y.setV n x).party = y.party := rfl
@[simp] theorem Task.setV_clk : (y.setV n x).clk = y.clk := rfl
@[simp] theorem Task.setV_fenceRel : (y.setV n x).fenceRel = y.fenceRel := rfl
@[simp] theorem Task.setV_readRel : (y.setV n x).readRel = y.readRel := rfl
@[simp] theorem Task.setV_wclk : (y.setV n x).wclk = y.wclk := rfl

end

section

variable {y : Task} {n : BitVec 3} {l : List Word}

@[simp] theorem Task.setQ_gen : (y.setQ n l).gen = y.gen := rfl
@[simp] theorem Task.setQ_dom : (y.setQ n l).dom = y.dom := rfl
@[simp] theorem Task.setQ_tile : (y.setQ n l).tile = y.tile := rfl
@[simp] theorem Task.setQ_ctx : (y.setQ n l).ctx = y.ctx := rfl
@[simp] theorem Task.setQ_keep : (y.setQ n l).keep = y.keep := rfl
@[simp] theorem Task.setQ_gang : (y.setQ n l).gang = y.gang := rfl
@[simp] theorem Task.setQ_share : (y.setQ n l).share = y.share := rfl
@[simp] theorem Task.setQ_run : (y.setQ n l).run = y.run := rfl
@[simp] theorem Task.setQ_pc : (y.setQ n l).pc = y.pc := rfl
@[simp] theorem Task.setQ_entered : (y.setQ n l).entered = y.entered := rfl
@[simp] theorem Task.setQ_s : (y.setQ n l).s = y.s := rfl
@[simp] theorem Task.setQ_v : (y.setQ n l).v = y.v := rfl
@[simp] theorem Task.setQ_k : (y.setQ n l).k = y.k := rfl
@[simp] theorem Task.setQ_m : (y.setQ n l).m = y.m := rfl
@[simp] theorem Task.setQ_full : (y.setQ n l).full = y.full := rfl
@[simp] theorem Task.setQ_mclk : (y.setQ n l).mclk = y.mclk := rfl
@[simp] theorem Task.setQ_q : (y.setQ n l).q = y.q.set n.toNat l := rfl
@[simp] theorem Task.setQ_gens : (y.setQ n l).gens = y.gens := rfl
@[simp] theorem Task.setQ_mbox : (y.setQ n l).mbox = y.mbox := rfl
@[simp] theorem Task.setQ_dead : (y.setQ n l).dead = y.dead := rfl
@[simp] theorem Task.setQ_reasm : (y.setQ n l).reasm = y.reasm := rfl
@[simp] theorem Task.setQ_ipc : (y.setQ n l).ipc = y.ipc := rfl
@[simp] theorem Task.setQ_vpc : (y.setQ n l).vpc = y.vpc := rfl
@[simp] theorem Task.setQ_status : (y.setQ n l).status = y.status := rfl
@[simp] theorem Task.setQ_fpflags : (y.setQ n l).fpflags = y.fpflags := rfl
@[simp] theorem Task.setQ_faultaddr : (y.setQ n l).faultaddr = y.faultaddr := rfl
@[simp] theorem Task.setQ_faultinfo : (y.setQ n l).faultinfo = y.faultinfo := rfl
@[simp] theorem Task.setQ_wait : (y.setQ n l).wait = y.wait := rfl
@[simp] theorem Task.setQ_wake : (y.setQ n l).wake = y.wake := rfl
@[simp] theorem Task.setQ_deadline : (y.setQ n l).deadline = y.deadline := rfl
@[simp] theorem Task.setQ_saveext : (y.setQ n l).saveext = y.saveext := rfl
@[simp] theorem Task.setQ_ucnt : (y.setQ n l).ucnt = y.ucnt := rfl
@[simp] theorem Task.setQ_hcycle : (y.setQ n l).hcycle = y.hcycle := rfl
@[simp] theorem Task.setQ_hsent : (y.setQ n l).hsent = y.hsent := rfl
@[simp] theorem Task.setQ_hrecv : (y.setQ n l).hrecv = y.hrecv := rfl
@[simp] theorem Task.setQ_hinfo : (y.setQ n l).hinfo = y.hinfo := rfl
@[simp] theorem Task.setQ_resident : (y.setQ n l).resident = y.resident := rfl
@[simp] theorem Task.setQ_vq : (y.setQ n l).vq = y.vq := rfl
@[simp] theorem Task.setQ_saved : (y.setQ n l).saved = y.saved := rfl
@[simp] theorem Task.setQ_pend : (y.setQ n l).pend = y.pend := rfl
@[simp] theorem Task.setQ_cfdesc : (y.setQ n l).cfdesc = y.cfdesc := rfl
@[simp] theorem Task.setQ_cfdone : (y.setQ n l).cfdone = y.cfdone := rfl
@[simp] theorem Task.setQ_cfstat : (y.setQ n l).cfstat = y.cfstat := rfl
@[simp] theorem Task.setQ_cfcopy : (y.setQ n l).cfcopy = y.cfcopy := rfl
@[simp] theorem Task.setQ_apPhase : (y.setQ n l).apPhase = y.apPhase := rfl
@[simp] theorem Task.setQ_stepping : (y.setQ n l).stepping = y.stepping := rfl
@[simp] theorem Task.setQ_yielded : (y.setQ n l).yielded = y.yielded := rfl
@[simp] theorem Task.setQ_wfsag : (y.setQ n l).wfsag = y.wfsag := rfl
@[simp] theorem Task.setQ_wfbat : (y.setQ n l).wfbat = y.wfbat := rfl
@[simp] theorem Task.setQ_wfrib : (y.setQ n l).wfrib = y.wfrib := rfl
@[simp] theorem Task.setQ_wfkn : (y.setQ n l).wfkn = y.wfkn := rfl
@[simp] theorem Task.setQ_fpend : (y.setQ n l).fpend = y.fpend := rfl
@[simp] theorem Task.setQ_wstop : (y.setQ n l).wstop = y.wstop := rfl
@[simp] theorem Task.setQ_werr : (y.setQ n l).werr = y.werr := rfl
@[simp] theorem Task.setQ_wdone : (y.setQ n l).wdone = y.wdone := rfl
@[simp] theorem Task.setQ_wdamp : (y.setQ n l).wdamp = y.wdamp := rfl
@[simp] theorem Task.setQ_wsaved : (y.setQ n l).wsaved = y.wsaved := rfl
@[simp] theorem Task.setQ_wimage : (y.setQ n l).wimage = y.wimage := rfl
@[simp] theorem Task.setQ_sends : (y.setQ n l).sends = y.sends := rfl
@[simp] theorem Task.setQ_mcas : (y.setQ n l).mcas = y.mcas := rfl
@[simp] theorem Task.setQ_io : (y.setQ n l).io = y.io := rfl
@[simp] theorem Task.setQ_wire : (y.setQ n l).wire = y.wire := rfl
@[simp] theorem Task.setQ_signed : (y.setQ n l).signed = y.signed := rfl
@[simp] theorem Task.setQ_arrivedAt : (y.setQ n l).arrivedAt = y.arrivedAt := rfl
@[simp] theorem Task.setQ_joinRec : (y.setQ n l).joinRec = y.joinRec := rfl
@[simp] theorem Task.setQ_joinDie : (y.setQ n l).joinDie = y.joinDie := rfl
@[simp] theorem Task.setQ_copied : (y.setQ n l).copied = y.copied := rfl
@[simp] theorem Task.setQ_sysReq : (y.setQ n l).sysReq = y.sysReq := rfl
@[simp] theorem Task.setQ_halting : (y.setQ n l).halting = y.halting := rfl
@[simp] theorem Task.setQ_closed : (y.setQ n l).closed = y.closed := rfl
@[simp] theorem Task.setQ_eretV : (y.setQ n l).eretV = y.eretV := rfl
@[simp] theorem Task.setQ_party : (y.setQ n l).party = y.party := rfl
@[simp] theorem Task.setQ_clk : (y.setQ n l).clk = y.clk := rfl
@[simp] theorem Task.setQ_fenceRel : (y.setQ n l).fenceRel = y.fenceRel := rfl
@[simp] theorem Task.setQ_readRel : (y.setQ n l).readRel = y.readRel := rfl
@[simp] theorem Task.setQ_wclk : (y.setQ n l).wclk = y.wclk := rfl

end

section

variable {y : Task} {n : BitVec 6} {x : Word}

@[simp] theorem Task.setS_gen : (y.setS n x).gen = y.gen := by unfold Task.setS; split <;> rfl
@[simp] theorem Task.setS_dom : (y.setS n x).dom = y.dom := by unfold Task.setS; split <;> rfl
@[simp] theorem Task.setS_tile : (y.setS n x).tile = y.tile := by unfold Task.setS; split <;> rfl
@[simp] theorem Task.setS_ctx : (y.setS n x).ctx = y.ctx := by unfold Task.setS; split <;> rfl
@[simp] theorem Task.setS_keep : (y.setS n x).keep = y.keep := by unfold Task.setS; split <;> rfl
@[simp] theorem Task.setS_gang : (y.setS n x).gang = y.gang := by unfold Task.setS; split <;> rfl
@[simp] theorem Task.setS_share : (y.setS n x).share = y.share := by unfold Task.setS; split <;> rfl
@[simp] theorem Task.setS_run : (y.setS n x).run = y.run := by unfold Task.setS; split <;> rfl
@[simp] theorem Task.setS_pc : (y.setS n x).pc = y.pc := by unfold Task.setS; split <;> rfl
@[simp] theorem Task.setS_entered : (y.setS n x).entered = y.entered := by unfold Task.setS; split <;> rfl
@[simp] theorem Task.setS_s : (y.setS n x).s = if n = 0 then y.s else y.s.set n.toNat x := by
  unfold Task.setS; split <;> rfl
@[simp] theorem Task.setS_v : (y.setS n x).v = y.v := by unfold Task.setS; split <;> rfl
@[simp] theorem Task.setS_k : (y.setS n x).k = y.k := by unfold Task.setS; split <;> rfl
@[simp] theorem Task.setS_m : (y.setS n x).m = y.m := by unfold Task.setS; split <;> rfl
@[simp] theorem Task.setS_full : (y.setS n x).full = y.full := by unfold Task.setS; split <;> rfl
@[simp] theorem Task.setS_mclk : (y.setS n x).mclk = y.mclk := by unfold Task.setS; split <;> rfl
@[simp] theorem Task.setS_q : (y.setS n x).q = y.q := by unfold Task.setS; split <;> rfl
@[simp] theorem Task.setS_gens : (y.setS n x).gens = y.gens := by unfold Task.setS; split <;> rfl
@[simp] theorem Task.setS_mbox : (y.setS n x).mbox = y.mbox := by unfold Task.setS; split <;> rfl
@[simp] theorem Task.setS_dead : (y.setS n x).dead = y.dead := by unfold Task.setS; split <;> rfl
@[simp] theorem Task.setS_reasm : (y.setS n x).reasm = y.reasm := by unfold Task.setS; split <;> rfl
@[simp] theorem Task.setS_ipc : (y.setS n x).ipc = y.ipc := by unfold Task.setS; split <;> rfl
@[simp] theorem Task.setS_vpc : (y.setS n x).vpc = y.vpc := by unfold Task.setS; split <;> rfl
@[simp] theorem Task.setS_status : (y.setS n x).status = y.status := by unfold Task.setS; split <;> rfl
@[simp] theorem Task.setS_fpflags : (y.setS n x).fpflags = y.fpflags := by unfold Task.setS; split <;> rfl
@[simp] theorem Task.setS_faultaddr : (y.setS n x).faultaddr = y.faultaddr := by unfold Task.setS; split <;> rfl
@[simp] theorem Task.setS_faultinfo : (y.setS n x).faultinfo = y.faultinfo := by unfold Task.setS; split <;> rfl
@[simp] theorem Task.setS_wait : (y.setS n x).wait = y.wait := by unfold Task.setS; split <;> rfl
@[simp] theorem Task.setS_wake : (y.setS n x).wake = y.wake := by unfold Task.setS; split <;> rfl
@[simp] theorem Task.setS_deadline : (y.setS n x).deadline = y.deadline := by unfold Task.setS; split <;> rfl
@[simp] theorem Task.setS_saveext : (y.setS n x).saveext = y.saveext := by unfold Task.setS; split <;> rfl
@[simp] theorem Task.setS_ucnt : (y.setS n x).ucnt = y.ucnt := by unfold Task.setS; split <;> rfl
@[simp] theorem Task.setS_hcycle : (y.setS n x).hcycle = y.hcycle := by unfold Task.setS; split <;> rfl
@[simp] theorem Task.setS_hsent : (y.setS n x).hsent = y.hsent := by unfold Task.setS; split <;> rfl
@[simp] theorem Task.setS_hrecv : (y.setS n x).hrecv = y.hrecv := by unfold Task.setS; split <;> rfl
@[simp] theorem Task.setS_hinfo : (y.setS n x).hinfo = y.hinfo := by unfold Task.setS; split <;> rfl
@[simp] theorem Task.setS_resident : (y.setS n x).resident = y.resident := by unfold Task.setS; split <;> rfl
@[simp] theorem Task.setS_vq : (y.setS n x).vq = y.vq := by unfold Task.setS; split <;> rfl
@[simp] theorem Task.setS_saved : (y.setS n x).saved = y.saved := by unfold Task.setS; split <;> rfl
@[simp] theorem Task.setS_pend : (y.setS n x).pend = y.pend := by unfold Task.setS; split <;> rfl
@[simp] theorem Task.setS_cfdesc : (y.setS n x).cfdesc = y.cfdesc := by unfold Task.setS; split <;> rfl
@[simp] theorem Task.setS_cfdone : (y.setS n x).cfdone = y.cfdone := by unfold Task.setS; split <;> rfl
@[simp] theorem Task.setS_cfstat : (y.setS n x).cfstat = y.cfstat := by unfold Task.setS; split <;> rfl
@[simp] theorem Task.setS_cfcopy : (y.setS n x).cfcopy = y.cfcopy := by unfold Task.setS; split <;> rfl
@[simp] theorem Task.setS_apPhase : (y.setS n x).apPhase = y.apPhase := by unfold Task.setS; split <;> rfl
@[simp] theorem Task.setS_stepping : (y.setS n x).stepping = y.stepping := by unfold Task.setS; split <;> rfl
@[simp] theorem Task.setS_yielded : (y.setS n x).yielded = y.yielded := by unfold Task.setS; split <;> rfl
@[simp] theorem Task.setS_wfsag : (y.setS n x).wfsag = y.wfsag := by unfold Task.setS; split <;> rfl
@[simp] theorem Task.setS_wfbat : (y.setS n x).wfbat = y.wfbat := by unfold Task.setS; split <;> rfl
@[simp] theorem Task.setS_wfrib : (y.setS n x).wfrib = y.wfrib := by unfold Task.setS; split <;> rfl
@[simp] theorem Task.setS_wfkn : (y.setS n x).wfkn = y.wfkn := by unfold Task.setS; split <;> rfl
@[simp] theorem Task.setS_fpend : (y.setS n x).fpend = y.fpend := by unfold Task.setS; split <;> rfl
@[simp] theorem Task.setS_wstop : (y.setS n x).wstop = y.wstop := by unfold Task.setS; split <;> rfl
@[simp] theorem Task.setS_werr : (y.setS n x).werr = y.werr := by unfold Task.setS; split <;> rfl
@[simp] theorem Task.setS_wdone : (y.setS n x).wdone = y.wdone := by unfold Task.setS; split <;> rfl
@[simp] theorem Task.setS_wdamp : (y.setS n x).wdamp = y.wdamp := by unfold Task.setS; split <;> rfl
@[simp] theorem Task.setS_wsaved : (y.setS n x).wsaved = y.wsaved := by unfold Task.setS; split <;> rfl
@[simp] theorem Task.setS_wimage : (y.setS n x).wimage = y.wimage := by unfold Task.setS; split <;> rfl
@[simp] theorem Task.setS_sends : (y.setS n x).sends = y.sends := by unfold Task.setS; split <;> rfl
@[simp] theorem Task.setS_mcas : (y.setS n x).mcas = y.mcas := by unfold Task.setS; split <;> rfl
@[simp] theorem Task.setS_io : (y.setS n x).io = y.io := by unfold Task.setS; split <;> rfl
@[simp] theorem Task.setS_wire : (y.setS n x).wire = y.wire := by unfold Task.setS; split <;> rfl
@[simp] theorem Task.setS_signed : (y.setS n x).signed = y.signed := by unfold Task.setS; split <;> rfl
@[simp] theorem Task.setS_arrivedAt : (y.setS n x).arrivedAt = y.arrivedAt := by unfold Task.setS; split <;> rfl
@[simp] theorem Task.setS_joinRec : (y.setS n x).joinRec = y.joinRec := by unfold Task.setS; split <;> rfl
@[simp] theorem Task.setS_joinDie : (y.setS n x).joinDie = y.joinDie := by unfold Task.setS; split <;> rfl
@[simp] theorem Task.setS_copied : (y.setS n x).copied = y.copied := by unfold Task.setS; split <;> rfl
@[simp] theorem Task.setS_sysReq : (y.setS n x).sysReq = y.sysReq := by unfold Task.setS; split <;> rfl
@[simp] theorem Task.setS_halting : (y.setS n x).halting = y.halting := by unfold Task.setS; split <;> rfl
@[simp] theorem Task.setS_closed : (y.setS n x).closed = y.closed := by unfold Task.setS; split <;> rfl
@[simp] theorem Task.setS_eretV : (y.setS n x).eretV = y.eretV := by unfold Task.setS; split <;> rfl
@[simp] theorem Task.setS_party : (y.setS n x).party = y.party := by unfold Task.setS; split <;> rfl
@[simp] theorem Task.setS_clk : (y.setS n x).clk = y.clk := by unfold Task.setS; split <;> rfl
@[simp] theorem Task.setS_fenceRel : (y.setS n x).fenceRel = y.fenceRel := by unfold Task.setS; split <;> rfl
@[simp] theorem Task.setS_readRel : (y.setS n x).readRel = y.readRel := by unfold Task.setS; split <;> rfl
@[simp] theorem Task.setS_wclk : (y.setS n x).wclk = y.wclk := by unfold Task.setS; split <;> rfl

end

section

variable {y : Task} {n : BitVec 3} {x : KReg}

@[simp] theorem Task.setK_gen : (y.setK n x).gen = y.gen := by unfold Task.setK; split <;> rfl
@[simp] theorem Task.setK_dom : (y.setK n x).dom = y.dom := by unfold Task.setK; split <;> rfl
@[simp] theorem Task.setK_tile : (y.setK n x).tile = y.tile := by unfold Task.setK; split <;> rfl
@[simp] theorem Task.setK_ctx : (y.setK n x).ctx = y.ctx := by unfold Task.setK; split <;> rfl
@[simp] theorem Task.setK_keep : (y.setK n x).keep = y.keep := by unfold Task.setK; split <;> rfl
@[simp] theorem Task.setK_gang : (y.setK n x).gang = y.gang := by unfold Task.setK; split <;> rfl
@[simp] theorem Task.setK_share : (y.setK n x).share = y.share := by unfold Task.setK; split <;> rfl
@[simp] theorem Task.setK_run : (y.setK n x).run = y.run := by unfold Task.setK; split <;> rfl
@[simp] theorem Task.setK_pc : (y.setK n x).pc = y.pc := by unfold Task.setK; split <;> rfl
@[simp] theorem Task.setK_entered : (y.setK n x).entered = y.entered := by unfold Task.setK; split <;> rfl
@[simp] theorem Task.setK_s : (y.setK n x).s = y.s := by unfold Task.setK; split <;> rfl
@[simp] theorem Task.setK_v : (y.setK n x).v = y.v := by unfold Task.setK; split <;> rfl
@[simp] theorem Task.setK_k : (y.setK n x).k = if n = 0 then y.k else y.k.set n.toNat x := by
  unfold Task.setK; split <;> rfl
@[simp] theorem Task.setK_m : (y.setK n x).m = y.m := by unfold Task.setK; split <;> rfl
@[simp] theorem Task.setK_full : (y.setK n x).full = y.full := by unfold Task.setK; split <;> rfl
@[simp] theorem Task.setK_mclk : (y.setK n x).mclk = y.mclk := by unfold Task.setK; split <;> rfl
@[simp] theorem Task.setK_q : (y.setK n x).q = y.q := by unfold Task.setK; split <;> rfl
@[simp] theorem Task.setK_gens : (y.setK n x).gens = y.gens := by unfold Task.setK; split <;> rfl
@[simp] theorem Task.setK_mbox : (y.setK n x).mbox = y.mbox := by unfold Task.setK; split <;> rfl
@[simp] theorem Task.setK_dead : (y.setK n x).dead = y.dead := by unfold Task.setK; split <;> rfl
@[simp] theorem Task.setK_reasm : (y.setK n x).reasm = y.reasm := by unfold Task.setK; split <;> rfl
@[simp] theorem Task.setK_ipc : (y.setK n x).ipc = y.ipc := by unfold Task.setK; split <;> rfl
@[simp] theorem Task.setK_vpc : (y.setK n x).vpc = y.vpc := by unfold Task.setK; split <;> rfl
@[simp] theorem Task.setK_status : (y.setK n x).status = y.status := by unfold Task.setK; split <;> rfl
@[simp] theorem Task.setK_fpflags : (y.setK n x).fpflags = y.fpflags := by unfold Task.setK; split <;> rfl
@[simp] theorem Task.setK_faultaddr : (y.setK n x).faultaddr = y.faultaddr := by unfold Task.setK; split <;> rfl
@[simp] theorem Task.setK_faultinfo : (y.setK n x).faultinfo = y.faultinfo := by unfold Task.setK; split <;> rfl
@[simp] theorem Task.setK_wait : (y.setK n x).wait = y.wait := by unfold Task.setK; split <;> rfl
@[simp] theorem Task.setK_wake : (y.setK n x).wake = y.wake := by unfold Task.setK; split <;> rfl
@[simp] theorem Task.setK_deadline : (y.setK n x).deadline = y.deadline := by unfold Task.setK; split <;> rfl
@[simp] theorem Task.setK_saveext : (y.setK n x).saveext = y.saveext := by unfold Task.setK; split <;> rfl
@[simp] theorem Task.setK_ucnt : (y.setK n x).ucnt = y.ucnt := by unfold Task.setK; split <;> rfl
@[simp] theorem Task.setK_hcycle : (y.setK n x).hcycle = y.hcycle := by unfold Task.setK; split <;> rfl
@[simp] theorem Task.setK_hsent : (y.setK n x).hsent = y.hsent := by unfold Task.setK; split <;> rfl
@[simp] theorem Task.setK_hrecv : (y.setK n x).hrecv = y.hrecv := by unfold Task.setK; split <;> rfl
@[simp] theorem Task.setK_hinfo : (y.setK n x).hinfo = y.hinfo := by unfold Task.setK; split <;> rfl
@[simp] theorem Task.setK_resident : (y.setK n x).resident = y.resident := by unfold Task.setK; split <;> rfl
@[simp] theorem Task.setK_vq : (y.setK n x).vq = y.vq := by unfold Task.setK; split <;> rfl
@[simp] theorem Task.setK_saved : (y.setK n x).saved = y.saved := by unfold Task.setK; split <;> rfl
@[simp] theorem Task.setK_pend : (y.setK n x).pend = y.pend := by unfold Task.setK; split <;> rfl
@[simp] theorem Task.setK_cfdesc : (y.setK n x).cfdesc = y.cfdesc := by unfold Task.setK; split <;> rfl
@[simp] theorem Task.setK_cfdone : (y.setK n x).cfdone = y.cfdone := by unfold Task.setK; split <;> rfl
@[simp] theorem Task.setK_cfstat : (y.setK n x).cfstat = y.cfstat := by unfold Task.setK; split <;> rfl
@[simp] theorem Task.setK_cfcopy : (y.setK n x).cfcopy = y.cfcopy := by unfold Task.setK; split <;> rfl
@[simp] theorem Task.setK_apPhase : (y.setK n x).apPhase = y.apPhase := by unfold Task.setK; split <;> rfl
@[simp] theorem Task.setK_stepping : (y.setK n x).stepping = y.stepping := by unfold Task.setK; split <;> rfl
@[simp] theorem Task.setK_yielded : (y.setK n x).yielded = y.yielded := by unfold Task.setK; split <;> rfl
@[simp] theorem Task.setK_wfsag : (y.setK n x).wfsag = y.wfsag := by unfold Task.setK; split <;> rfl
@[simp] theorem Task.setK_wfbat : (y.setK n x).wfbat = y.wfbat := by unfold Task.setK; split <;> rfl
@[simp] theorem Task.setK_wfrib : (y.setK n x).wfrib = y.wfrib := by unfold Task.setK; split <;> rfl
@[simp] theorem Task.setK_wfkn : (y.setK n x).wfkn = y.wfkn := by unfold Task.setK; split <;> rfl
@[simp] theorem Task.setK_fpend : (y.setK n x).fpend = y.fpend := by unfold Task.setK; split <;> rfl
@[simp] theorem Task.setK_wstop : (y.setK n x).wstop = y.wstop := by unfold Task.setK; split <;> rfl
@[simp] theorem Task.setK_werr : (y.setK n x).werr = y.werr := by unfold Task.setK; split <;> rfl
@[simp] theorem Task.setK_wdone : (y.setK n x).wdone = y.wdone := by unfold Task.setK; split <;> rfl
@[simp] theorem Task.setK_wdamp : (y.setK n x).wdamp = y.wdamp := by unfold Task.setK; split <;> rfl
@[simp] theorem Task.setK_wsaved : (y.setK n x).wsaved = y.wsaved := by unfold Task.setK; split <;> rfl
@[simp] theorem Task.setK_wimage : (y.setK n x).wimage = y.wimage := by unfold Task.setK; split <;> rfl
@[simp] theorem Task.setK_sends : (y.setK n x).sends = y.sends := by unfold Task.setK; split <;> rfl
@[simp] theorem Task.setK_mcas : (y.setK n x).mcas = y.mcas := by unfold Task.setK; split <;> rfl
@[simp] theorem Task.setK_io : (y.setK n x).io = y.io := by unfold Task.setK; split <;> rfl
@[simp] theorem Task.setK_wire : (y.setK n x).wire = y.wire := by unfold Task.setK; split <;> rfl
@[simp] theorem Task.setK_signed : (y.setK n x).signed = y.signed := by unfold Task.setK; split <;> rfl
@[simp] theorem Task.setK_arrivedAt : (y.setK n x).arrivedAt = y.arrivedAt := by unfold Task.setK; split <;> rfl
@[simp] theorem Task.setK_joinRec : (y.setK n x).joinRec = y.joinRec := by unfold Task.setK; split <;> rfl
@[simp] theorem Task.setK_joinDie : (y.setK n x).joinDie = y.joinDie := by unfold Task.setK; split <;> rfl
@[simp] theorem Task.setK_copied : (y.setK n x).copied = y.copied := by unfold Task.setK; split <;> rfl
@[simp] theorem Task.setK_sysReq : (y.setK n x).sysReq = y.sysReq := by unfold Task.setK; split <;> rfl
@[simp] theorem Task.setK_halting : (y.setK n x).halting = y.halting := by unfold Task.setK; split <;> rfl
@[simp] theorem Task.setK_closed : (y.setK n x).closed = y.closed := by unfold Task.setK; split <;> rfl
@[simp] theorem Task.setK_eretV : (y.setK n x).eretV = y.eretV := by unfold Task.setK; split <;> rfl
@[simp] theorem Task.setK_party : (y.setK n x).party = y.party := by unfold Task.setK; split <;> rfl
@[simp] theorem Task.setK_clk : (y.setK n x).clk = y.clk := by unfold Task.setK; split <;> rfl
@[simp] theorem Task.setK_fenceRel : (y.setK n x).fenceRel = y.fenceRel := by unfold Task.setK; split <;> rfl
@[simp] theorem Task.setK_readRel : (y.setK n x).readRel = y.readRel := by unfold Task.setK; split <;> rfl
@[simp] theorem Task.setK_wclk : (y.setK n x).wclk = y.wclk := by unfold Task.setK; split <;> rfl

end

end Sys2Proof.Machine
end

