-- ==== Sys2Proof/Tests/Slice0.lean ====
section
/-! SUPPORT. Small tests: words of the encoding tables and their instructions, ill-formed terms, the manual's worked
examples, and for each statement a state that meets its hypotheses. -/

namespace Sys2Proof.Tests

open Sys2Proof Sys2Proof.Machine

set_option Elab.async false

/-! Decoding (04 R96-R99, R105). Each format with every field zero, and instructions made of them. -/

def hd0 : Hd := ⟨false, 0, false⟩
def sc0 : ScF :=
  { hd := hd0, d := .s 0, a := .s 0, b := .s 0, c := .s 0, ib := false, ty := 0, cond := 0, iz := false, x := 0, imm := 0 }
def me0 : MemF :=
  { hd := hd0, d := .s 0, a := .s 0, b := .s 0, c := .s 0, size := 0, sgn := false, order := 0, scope := 0, scopen := 0,
    far := false, x := 0, imm := 0 }
def ve0 : VecF :=
  { hd := hd0, d := .s 0, a := .s 0, b := .s 0, c := .s 0, fmt := 0, fmt2 := 0, rnd := 0, zm := false, nov := false,
    sb := false, x := 0, imm := 0 }
def wh0 : WhF :=
  { hd := hd0, d := .s 0, a := .s 0, b := .s 0, c := .s 0, fmta := 0, fmtb := 0, acc := false, p24 := false, x := 0, imm := 0 }
def en0 : EngF :=
  { hd := hd0, d := .s 0, a := .s 0, b := .s 0, c := .s 0, que := 0, trapm := false, rlx := false, tmo := false, cone := 0,
    x := 0, imm := 0 }
def sy0 : SysF := { hd := hd0, d := .s 0, a := .s 0, b := .s 0, c := .s 0, x := 0, sysn := 0, imm := 0 }
def fl0 : FlF := { hd := hd0, d := .s 0, modl := 0, imm := 0 }
def fb0 : FbF := { hd := hd0, a := .s 0, b := .s 0, link := false, off := 0, slot := 0 }

theorem test_decode_arith :
    ([
      (0x00000000_00000000_00000000, .nop sc0),
      (0x0010080B_B8000000_00000000, .add { sc0 with d := .s 8, a := .s 5, b := .m 6, ty := 0 }),
      (0x0020080B_B8008000_00000000, .sub { sc0 with d := .s 8, a := .s 5, b := .m 6, ty := 1 }),
      (0x0030080B_B8010000_00000000, .mul { sc0 with d := .s 8, a := .s 5, b := .m 6, ty := 2 }),
      (0x0040080B_B8018000_00000000, .mulh { sc0 with d := .s 8, a := .s 5, b := .m 6, ty := 3 }),
      (0x0050080B_B8020000_00000000, .mad { sc0 with d := .s 8, a := .s 5, b := .m 6, ty := 4 }),
      (0x0060080B_B8028000_00000000, .div { sc0 with d := .s 8, a := .s 5, b := .m 6, ty := 5 }),
      (0x0070080B_B8030000_00000000, .rem { sc0 with d := .s 8, a := .s 5, b := .m 6, ty := 6 }),
      (0x0080080B_B8038000_00000000, .min { sc0 with d := .s 8, a := .s 5, b := .m 6, ty := 7 }),
      (0x0090080B_B8000000_00000000, .max { sc0 with d := .s 8, a := .s 5, b := .m 6, ty := 0 })] : List (Nat × Instr)).all (fun p => decodeTableWord 96 p.1 == some p.2) = true := by
  decide

theorem test_decode_logic :
    ([
      (0x04006BF8_00058000_FFFFFFFE, .and { sc0 with d := .m 3, a := .q 4, ib := true, ty := 3, imm := -2 }),
      (0x04106BF8_00060000_FFFFFFFF, .or { sc0 with d := .m 3, a := .q 4, ib := true, ty := 4, imm := -1 }),
      (0x04206BF8_00068000_00000000, .xor { sc0 with d := .m 3, a := .q 4, ib := true, ty := 5, imm := 0 }),
      (0x04306BF8_00070000_00000001, .andn { sc0 with d := .m 3, a := .q 4, ib := true, ty := 6, imm := 1 }),
      (0x04406BF8_00078000_00000002, .orn { sc0 with d := .m 3, a := .q 4, ib := true, ty := 7, imm := 2 }),
      (0x04506BF8_00040000_00000003, .shl { sc0 with d := .m 3, a := .q 4, ib := true, ty := 0, imm := 3 }),
      (0x04606BF8_00048000_00000004, .shr { sc0 with d := .m 3, a := .q 4, ib := true, ty := 1, imm := 4 }),
      (0x04706BF8_00050000_00000005, .sar { sc0 with d := .m 3, a := .q 4, ib := true, ty := 2, imm := 5 }),
      (0x04806BF8_00058000_00000006, .rol { sc0 with d := .m 3, a := .q 4, ib := true, ty := 3, imm := 6 }),
      (0x04906BF8_00060000_00000007, .ror { sc0 with d := .m 3, a := .q 4, ib := true, ty := 4, imm := 7 })] : List (Nat × Instr)).all (fun p => decodeTableWord 96 p.1 == some p.2) = true := by
  decide

theorem test_decode_count :
    ([
      (0x0800787E_00010000_00000000, .clz { sc0 with d := .q 0, a := .s 63, ty := 2 }),
      (0x0810787E_00010000_00000000, .ctz { sc0 with d := .q 0, a := .s 63, ty := 2 }),
      (0x0820787E_00010000_00000000, .popc { sc0 with d := .q 0, a := .s 63, ty := 2 }),
      (0x0830787E_00010000_00000000, .brev { sc0 with d := .q 0, a := .s 63, ty := 2 }),
      (0x0840787E_00010000_00000000, .bswap { sc0 with d := .q 0, a := .s 63, ty := 2 }),
      (0x08500104_0C01A800_00000000, .set { sc0 with d := .s 1, a := .s 2, b := .s 3, ty := 3, cond := 5 }),
      (0x08600104_0C200000_00000000, .sel { sc0 with d := .s 1, a := .s 2, b := .s 3, c := .s 4 }),
      (0x08700104_00008000_00000000, .sext { sc0 with d := .s 1, a := .s 2, ty := 1 }),
      (0x08800104_00030000_00000000, .zext { sc0 with d := .s 1, a := .s 2, ty := 6 })] : List (Nat × Instr)).all (fun p => decodeTableWord 96 p.1 == some p.2) = true := by
  decide

theorem test_decode_address :
    ([
      (0x10000812_28000003_FFFFFFF0, .lea { sc0 with d := .s 8, a := .s 9, b := .s 10, x := 3, imm := -16 }),
      (0x1010080A_00058000_0000041C, .bfx { sc0 with d := .s 8, a := .s 5, ib := true, ty := 3, imm := 1052 }),
      (0x1020080A_1C300000_00000000, .bfi { sc0 with d := .s 8, a := .s 5, b := .s 7, c := .s 6 }),
      (0x1030040A_180000CC_00000000, .zord { sc0 with d := .s 4, a := .s 5, b := .s 6, x := 204 }),
      (0x1040040A_000000CE_00000000, .zdec { sc0 with d := .s 4, a := .s 5, x := 206 }),
      (0x1400610A_00000001_00000000, .mov { sc0 with d := .k 1, a := .s 5, x := 1 }),
      (0x1C003FD2_00000000_00000000, .jr { sc0 with d := .s 63, a := .m 1 }),
      (0x1C10007E_00000000_00000000, .ret { sc0 with a := .s 63 }),
      (0x1C200000_00000000_00000007, .trapi { sc0 with imm := 7 }),
      (0x1C300000_00000000_00000000, .exit sc0),
      (0x1C438000_00000000_00000000, .yield { sc0 with hd := ⟨false, 3, true⟩ })] : List (Nat × Instr)).all (fun p => decodeTableWord 96 p.1 == some p.2) = true := by
  decide

theorem test_decode_move :
    ([
      (0x14100500_80000000_00000001, .li { fl0 with d := .s 5, imm := 0x8000000000000001 })] : List (Nat × Instr)).all (fun p => decodeTableWord 96 p.1 == some p.2) = true := by
  decide

theorem test_decode_branch :
    ([
      (0x18000000_FFFFFFFF_FFFFFFFC, .jmp { fb0 with off := -1, slot := 4 }),
      (0x18003F01_00000000_00000008, .call { fb0 with a := .s 63, link := true, off := 1 }),
      (0x18100400_FFFFFFFF_FFFFFFF1, .loop { fb0 with a := .s 4, off := -2, slot := 1 }),
      (0x190007D4_FFFFFFFF_FFFFFFD8, .brEq { fb0 with a := .s 7, b := .m 2, off := -5, slot := 0 }),
      (0x192007D4_FFFFFFFF_FFFFFFE1, .brNe { fb0 with a := .s 7, b := .m 2, off := -4, slot := 1 }),
      (0x194007D4_FFFFFFFF_FFFFFFEA, .brLtZ64 { fb0 with a := .s 7, b := .m 2, off := -3, slot := 2 }),
      (0x195007D4_FFFFFFFF_FFFFFFF3, .brLtI64 { fb0 with a := .s 7, b := .m 2, off := -2, slot := 3 }),
      (0x196007D4_FFFFFFFF_FFFFFFFC, .brGeZ64 { fb0 with a := .s 7, b := .m 2, off := -1, slot := 4 }),
      (0x197007D4_00000000_00000000, .brGeI64 { fb0 with a := .s 7, b := .m 2, off := 0, slot := 0 }),
      (0x198007D4_00000000_00000009, .brLeZ64 { fb0 with a := .s 7, b := .m 2, off := 1, slot := 1 }),
      (0x199007D4_00000000_00000012, .brLeI64 { fb0 with a := .s 7, b := .m 2, off := 2, slot := 2 }),
      (0x19A007D4_00000000_0000001B, .brGtZ64 { fb0 with a := .s 7, b := .m 2, off := 3, slot := 3 }),
      (0x19B007D4_00000000_00000024, .brGtI64 { fb0 with a := .s 7, b := .m 2, off := 4, slot := 4 })] : List (Nat × Instr)).all (fun p => decodeTableWord 96 p.1 == some p.2) = true := by
  decide

theorem test_decode_memory :
    ([
      (0x20000904_00028000_FFFFFFF8, .ld { me0 with d := .s 9, a := .s 2, size := 2, sgn := true, imm := -8 }),
      (0x20100005_F4032B28_00000008, .st { me0 with a := .s 2, b := .q 5, size := 3, order := 2, scope := 5, scopen := 9, x := 8, imm := 8 }),
      (0x20200402_002C0000_00000000, .ldp { me0 with d := .s 4, a := .s 1, c := .s 5, size := 4 }),
      (0x20300002_102C0000_00000000, .stp { me0 with a := .s 1, b := .s 4, c := .s 5, size := 4 }),
      (0x24000002_00000008_00000000, .pref { me0 with a := .s 1, x := 8 }),
      (0x24100002_00000000_00000000, .wbl { me0 with a := .s 1 }),
      (0x24200002_00000000_00000000, .invl { me0 with a := .s 1 }),
      (0x24300002_00000000_00000080, .zerol { me0 with a := .s 1, imm := 128 }),
      (0x28000202_00000000_00000000, .pin { me0 with d := .s 2, a := .s 1 }),
      (0x28100202_00000000_00000000, .unpin { me0 with d := .s 2, a := .s 1 })] : List (Nat × Instr)).all (fun p => decodeTableWord 96 p.1 == some p.2) = true := by
  decide

theorem test_decode_atomic :
    ([
      (0x30000308_14030000_00000010, .amoAdd { me0 with d := .s 3, a := .s 4, b := .s 5, size := 3, order := 0, scope := 0, far := false, imm := 16 }),
      (0x30100308_14031210_00000010, .amoAnd { me0 with d := .s 3, a := .s 4, b := .s 5, size := 3, order := 1, scope := 1, far := true, imm := 16 }),
      (0x30200308_14032400_00000010, .amoOr { me0 with d := .s 3, a := .s 4, b := .s 5, size := 3, order := 2, scope := 2, far := false, imm := 16 }),
      (0x30300308_14033610_00000010, .amoXor { me0 with d := .s 3, a := .s 4, b := .s 5, size := 3, order := 3, scope := 3, far := true, imm := 16 }),
      (0x30400308_14034800_00000010, .amoSmin { me0 with d := .s 3, a := .s 4, b := .s 5, size := 3, order := 4, scope := 4, far := false, imm := 16 }),
      (0x30500308_14030010_00000010, .amoSmax { me0 with d := .s 3, a := .s 4, b := .s 5, size := 3, order := 0, scope := 0, far := true, imm := 16 }),
      (0x30600308_14031200_00000010, .amoZmin { me0 with d := .s 3, a := .s 4, b := .s 5, size := 3, order := 1, scope := 1, far := false, imm := 16 }),
      (0x30700308_14032410_00000010, .amoZmax { me0 with d := .s 3, a := .s 4, b := .s 5, size := 3, order := 2, scope := 2, far := true, imm := 16 }),
      (0x30800308_14033600_00000010, .amoSwap { me0 with d := .s 3, a := .s 4, b := .s 5, size := 3, order := 3, scope := 3, far := false, imm := 16 }),
      (0x30900308_14024810_00000010, .amoFaddFp32 { me0 with d := .s 3, a := .s 4, b := .s 5, size := 2, order := 4, scope := 4, far := true, imm := 16 }),
      (0x30A00308_14020000_00000010, .amoFmaxFp32 { me0 with d := .s 3, a := .s 4, b := .s 5, size := 2, order := 0, scope := 0, far := false, imm := 16 }),
      (0x34000212_10344600_00000000, .cas { me0 with d := .s 2, a := .s 9, b := .s 4, c := .s 6, size := 4, order := 4, scope := 3 }),
      (0x34100212_00003400_00000000, .mcas { me0 with d := .s 2, a := .s 9, order := 3, scope := 2 }),
      (0x34200000_00004801_00000000, .fence { me0 with order := 4, scope := 4, x := 1 }),
      (0x38000212_00019000_00000000, .iold { me0 with d := .s 2, a := .s 9, size := 1, sgn := true, order := 1 }),
      (0x38100012_0C022000_00000000, .iost { me0 with a := .s 9, b := .s 3, size := 2, order := 2 })] : List (Nat × Instr)).all (fun p => decodeTableWord 96 p.1 == some p.2) = true := by
  decide

theorem test_decode_float :
    ([
      (0x40004185_0C000000_00000000, .vadd { ve0 with d := .v 1, a := .v 2, b := .v 3, fmt := 0, rnd := 0, zm := false }),
      (0x40114185_0C004060_00000000, .vsub { ve0 with hd := ⟨false, 1, false⟩, d := .v 1, a := .v 2, b := .v 3, fmt := 1, rnd := 1, zm := true }),
      (0x40224185_0C008080_00000000, .vmul { ve0 with hd := ⟨false, 2, false⟩, d := .v 1, a := .v 2, b := .v 3, fmt := 2, rnd := 2, zm := false }),
      (0x40334185_0EF800E0_00000000, .vfma { ve0 with hd := ⟨false, 3, false⟩, d := .v 1, a := .v 2, b := .v 3, c := .v 31, fmt := 0, rnd := 3, zm := true }),
      (0x40444185_0EF84100_00000000, .vfms { ve0 with hd := ⟨false, 4, false⟩, d := .v 1, a := .v 2, b := .v 3, c := .v 31, fmt := 1, rnd := 4, zm := false }),
      (0x40554185_0EF88020_00000000, .vfnma { ve0 with hd := ⟨false, 5, false⟩, d := .v 1, a := .v 2, b := .v 3, c := .v 31, fmt := 2, rnd := 0, zm := true }),
      (0x40604184_0C004008_00000000, .vmin { ve0 with d := .v 1, a := .v 2, b := .s 3, sb := true, fmt := 1 }),
      (0x40704185_0C000000_00000000, .vmax { ve0 with d := .v 1, a := .v 2, b := .v 3 }),
      (0x40804184_00000000_00000000, .vabs { ve0 with d := .v 1, a := .v 2 }),
      (0x40904184_00000000_00000000, .vneg { ve0 with d := .v 1, a := .v 2 }),
      (0x40A04185_0C000000_00000000, .vabsmax { ve0 with d := .v 1, a := .v 2, b := .v 3 })] : List (Nat × Instr)).all (fun p => decodeTableWord 96 p.1 == some p.2) = true := by
  decide

theorem test_decode_function :
    ([
      (0x44004185_0C0000C0_00000000, .vdiv { ve0 with d := .v 1, a := .v 2, b := .v 3, rnd := 3 }),
      (0x44104184_00008100_00000005, .vsqrt { ve0 with d := .v 1, a := .v 2, fmt := 2, rnd := 4, imm := 5 }),
      (0x44204184_00008100_00000005, .vrcp { ve0 with d := .v 1, a := .v 2, fmt := 2, rnd := 4, imm := 5 }),
      (0x44304184_00008100_00000005, .vrsq { ve0 with d := .v 1, a := .v 2, fmt := 2, rnd := 4, imm := 5 }),
      (0x44404184_00008100_00000005, .vexp2 { ve0 with d := .v 1, a := .v 2, fmt := 2, rnd := 4, imm := 5 }),
      (0x44504184_00008100_00000005, .vlog2 { ve0 with d := .v 1, a := .v 2, fmt := 2, rnd := 4, imm := 5 }),
      (0x44604185_0C000000_00000000, .vscale { ve0 with d := .v 1, a := .v 2, b := .v 3 }),
      (0x48004184_00000020_00000000, .vclass { ve0 with d := .v 1, a := .v 2, zm := true }),
      (0x48106285_0C048005_00000000, .vcmp { ve0 with d := .k 2, a := .v 2, b := .v 3, fmt := 18, x := 5 }),
      (0x48204185_0F24C000_00000000, .vsel { ve0 with d := .v 1, a := .v 2, b := .v 3, c := .k 4, fmt := 19 }),
      (0x4C004184_00000450_00001000, .vcvt { ve0 with d := .v 1, a := .v 2, fmt := 0, fmt2 := 2, rnd := 1, nov := true, imm := 0x1000 }),
      (0x4C104184_0C000600_00000000, .vqnt { ve0 with d := .v 1, a := .v 2, b := .s 3, fmt := 0, fmt2 := 3 }),
      (0x4C107C00_0C000E01_00000000, .vqntSout { ve0 with d := .q 4, b := .s 3, fmt := 0, fmt2 := 7, x := 1 }),
      (0x4C204184_0C001400_00000000, .vdqnt { ve0 with d := .v 1, a := .v 2, b := .s 3, fmt := 0, fmt2 := 10 })] : List (Nat × Instr)).all (fun p => decodeTableWord 96 p.1 == some p.2) = true := by
  decide

theorem test_decode_integer :
    ([
      (0x60004185_0C040001_00000000, .viadd { ve0 with d := .v 1, a := .v 2, b := .v 3, fmt := 16, x := 1 }),
      (0x60104185_0C044000_00000000, .visub { ve0 with d := .v 1, a := .v 2, b := .v 3, fmt := 17, x := 0 }),
      (0x60204185_0C048002_00000000, .vimul { ve0 with d := .v 1, a := .v 2, b := .v 3, fmt := 18, x := 2 }),
      (0x60304185_0C04C000_00000000, .vimin { ve0 with d := .v 1, a := .v 2, b := .v 3, fmt := 19, x := 0 }),
      (0x60404185_0C050000_00000000, .vimax { ve0 with d := .v 1, a := .v 2, b := .v 3, fmt := 20, x := 0 }),
      (0x64004185_E4048008_00000000, .vand { ve0 with d := .v 1, a := .v 2, b := .q 1, sb := true, fmt := 18 }),
      (0x64104185_E404C008_00000000, .vor { ve0 with d := .v 1, a := .v 2, b := .q 1, sb := true, fmt := 19 }),
      (0x64204185_E4050008_00000000, .vxor { ve0 with d := .v 1, a := .v 2, b := .q 1, sb := true, fmt := 20 }),
      (0x64304185_E4054008_00000000, .vshl { ve0 with d := .v 1, a := .v 2, b := .q 1, sb := true, fmt := 21 }),
      (0x64404185_E4058008_00000000, .vshr { ve0 with d := .v 1, a := .v 2, b := .q 1, sb := true, fmt := 22 }),
      (0x64504185_E405C008_00000000, .vsar { ve0 with d := .v 1, a := .v 2, b := .q 1, sb := true, fmt := 23 })] : List (Nat × Instr)).all (fun p => decodeTableWord 96 p.1 == some p.2) = true := by
  decide

theorem test_decode_vector_memory :
    ([
      (0x70004104_00000000_FFFFFF80, .vld { ve0 with d := .v 1, a := .s 2, fmt := 0, imm := -128 }),
      (0x70100005_0C004000_00000000, .vst { ve0 with a := .s 2, b := .v 3, fmt := 1 }),
      (0x70204104_00008000_00000040, .vlds { ve0 with d := .v 1, a := .s 2, fmt := 2, imm := 64 }),
      (0x70304105_0C048002_00000000, .vgath { ve0 with d := .v 1, a := .s 2, b := .v 3, fmt := 18, x := 2 }),
      (0x70400005_0E24C007_00000000, .vscat { ve0 with a := .s 2, b := .v 3, c := .v 4, fmt := 19, x := 7 }),
      (0x7C000004_00000007_00000000, .agen { ve0 with a := .s 2, x := 7 }),
      (0x7C105800_00000003_00000000, .qbind { ve0 with d := .v 24, x := 3 }),
      (0x7C205F00_00000000_00000000, .qfree { ve0 with d := .v 31 }),
      (0x7C3000F2_00000000_0000017F, .rep { ve0 with a := .q 1, imm := 383 })] : List (Nat × Instr)).all (fun p => decodeTableWord 96 p.1 == some p.2) = true := by
  decide

theorem test_decode_vector_move :
    ([
      (0x74004100_0C01C000_00000000, .vbcast { ve0 with d := .v 1, b := .s 3, fmt := 7 }),
      (0x74107F84_00000000_0000001F, .vext { ve0 with d := .q 7, a := .v 2, fmt := 0, imm := 31 }),
      (0x74204100_0C014000_0000007F, .vins { ve0 with d := .v 1, b := .s 3, fmt := 5, imm := 127 }),
      (0x74304185_0C00C000_00000000, .vperm { ve0 with d := .v 1, a := .v 2, b := .v 3, fmt := 3 }),
      (0x74404185_0C000004_00000020, .vshuf { ve0 with d := .v 1, a := .v 2, b := .v 3, fmt := 0, x := 4, imm := 32 }),
      (0x74504101_E005C000_00000000, .viota { ve0 with d := .v 1, b := .q 0, fmt := 23 }),
      (0x74607E84_00000003_00000000, .vred { ve0 with d := .q 6, a := .v 2, fmt := 0, x := 3 }),
      (0x74704184_00040006_00000000, .vscan { ve0 with d := .v 1, a := .v 2, fmt := 16, x := 6 }),
      (0x74804184_00010000_00000000, .vmov { ve0 with d := .v 1, a := .v 2, fmt := 4 }),
      (0x780061C5_8C000000_00000000, .kand { ve0 with d := .k 1, a := .k 2, b := .k 3 }),
      (0x781061C5_8C000000_00000000, .kor { ve0 with d := .k 1, a := .k 2, b := .k 3 }),
      (0x782061C5_8C000000_00000000, .kxor { ve0 with d := .k 1, a := .k 2, b := .k 3 }),
      (0x783061C4_00000000_00000000, .knot { ve0 with d := .k 1, a := .k 2 }),
      (0x78407CC4_00000000_00000000, .kpop { ve0 with d := .q 4, a := .k 2 }),
      (0x78507CC4_00000000_00000000, .kfirst { ve0 with d := .q 4, a := .k 2 }),
      (0x786061C4_00000000_00000000, .kmov { ve0 with d := .k 1, a := .k 2 })] : List (Nat × Instr)).all (fun p => decodeTableWord 96 p.1 == some p.2) = true := by
  decide

theorem test_decode_wheel :
    ([
      (0x80000002_0819D280_00000000, .mldb { wh0 with a := .s 1, b := .s 2, c := .s 3, fmta := 7, fmtb := 9, p24 := true }),
      (0x80100002_00180000_00001F1F, .mldc { wh0 with a := .s 1, c := .s 3, imm := 0x1f1f }),
      (0x80200002_08000017_00000000, .mknot { wh0 with a := .s 1, b := .s 2, x := 23 }),
      (0x80300002_00180000_0000FFFF, .mlds { wh0 with a := .s 1, c := .s 3, imm := 0xffff }),
      (0x84000014_2F49D303_00000000, .mma { wh0 with a := .s 10, b := .s 11, c := .m 1, fmta := 7, fmtb := 9, acc := true, x := 3 }),
      (0x84100014_2F484480_00000000, .mmac { wh0 with a := .s 10, b := .s 11, c := .m 1, fmta := 1, fmtb := 2, p24 := true }),
      (0x84200002_00180100_00FFFFFF, .mspl { wh0 with a := .s 1, c := .s 3, acc := true, imm := 0xffffff }),
      (0x88000002_08180000_00000000, .msdx { wh0 with a := .s 1, b := .s 2, c := .s 3 }),
      (0x88100002_08180000_00000009, .msgrad { wh0 with a := .s 1, b := .s 2, c := .s 3, imm := 9 }),
      (0x88200000_00180005_00000000, .mrefine { wh0 with c := .s 3, x := 5 }),
      (0x88300000_00180000_00000000, .mzeroSag { wh0 with c := .s 3 }),
      (0x88300000_00180001_0000007F, .mzeroBat { wh0 with c := .s 3, x := 1, imm := 127 }),
      (0x88300000_00180002_0000FFFF, .mzeroRib { wh0 with c := .s 3, x := 2, imm := 0xffff }),
      (0x8C000002_0818C019_0001FFFF, .mrd { wh0 with a := .s 1, b := .s 2, c := .s 3, fmta := 3, x := 25, imm := 0x1ffff }),
      (0x8C100002_08180100_00000000, .mwr { wh0 with a := .s 1, b := .s 2, c := .s 3, fmta := 0, acc := true }),
      (0x8C200000_00000000_00000000, .mdrain wh0),
      (0x8C300002_00000000_00000000, .mstat { wh0 with a := .s 1 })] : List (Nat × Instr)).all (fun p => decodeTableWord 96 p.1 == some p.2) = true := by
  decide

theorem test_decode_copy_cone :
    ([
      (0x90000104_0C070FEE_00000000, .cpy { en0 with d := .s 1, a := .s 2, b := .s 3, que := 7, cone := 63, x := 46 }),
      (0x90100104_0C200000_00000000, .cpyr { en0 with d := .s 1, a := .s 2, b := .s 3, c := .s 4 }),
      (0x90200100_00000000_000000FF, .cpyqf { en0 with d := .s 1, imm := 255 }),
      (0x94000004_00000000_00000000, .sleept { en0 with a := .s 2 }),
      (0x98000004_00000040_00000000, .cinit { en0 with a := .s 2, cone := 1 }),
      (0x98100000_002061C0_00000000, .arrive { en0 with c := .s 4, tmo := true, rlx := true, cone := 7 }),
      (0x98100100_000001C2_00000000, .arriveW { en0 with d := .s 1, cone := 7, x := 2 }),
      (0x98100000_0C000001_00000000, .arriveRmt { en0 with b := .s 3, x := 1 }),
      (0x98200004_000000FC_00000000, .expect { en0 with a := .s 2, cone := 3, x := 60 }),
      (0x98300104_03E020C0_00000000, .cwait { en0 with d := .s 1, a := .s 2, c := .q 4, tmo := true, cone := 3 }),
      (0x98400100_000000C2_00000000, .ctest { en0 with d := .s 1, cone := 3, x := 2 }),
      (0x98500000_000040C0_00000000, .evsig { en0 with cone := 3, rlx := true }),
      (0x98500000_0C000001_00000000, .evsigRmt { en0 with b := .s 3, x := 1 }),
      (0x98600100_000000C0_00000000, .mutexl { en0 with d := .s 1, cone := 3 }),
      (0x98700000_00001FC0_00000000, .mutexu { en0 with cone := 127 })] : List (Nat × Instr)).all (fun p => decodeTableWord 96 p.1 == some p.2) = true := by
  decide

theorem test_decode_message :
    ([
      (0x9C000104_0C208034_0000000B, .msend { en0 with d := .s 1, a := .s 2, b := .s 3, c := .s 4, trapm := true, x := 52, imm := 11 }),
      (0x9C1001EE_00000000_00000000, .mtake { en0 with d := .s 1, a := .m 15 }),
      (0x9C2001D2_00000000_00000000, .mpeek { en0 with d := .s 1, a := .m 1 }),
      (0x9C3001D2_00202000_00000000, .mwaitf { en0 with d := .s 1, a := .m 1, c := .s 4, tmo := true }),
      (0xA0000104_00008000_00000020, .spawn { en0 with d := .s 1, a := .s 2, trapm := true, imm := 32 }),
      (0xA0100104_0C000001_00000000, .join { en0 with d := .s 1, a := .s 2, b := .s 3, x := 1 }),
      (0xA0200104_00000000_00000000, .gang { en0 with d := .s 1, a := .s 2 }),
      (0xA0300004_0C000000_00000000, .rinit { en0 with a := .s 2, b := .s 3 }),
      (0xA0400100_0C200000_00000000, .rtake { en0 with d := .s 1, b := .s 3, c := .s 4 }),
      (0xA0580100_00000000_00000000, .tself { en0 with hd := ⟨true, 0, false⟩, d := .s 1 }),
      (0xA4000104_00000000_00000000, .sign { en0 with d := .s 1, a := .s 2 }),
      (0xA4100100_00000000_00000000, .step { en0 with d := .s 1 }),
      (0xA4200100_00000000_00000000, .dissolve { en0 with d := .s 1 }),
      (0xA4300000_00000000_00000000, .ckpt en0),
      (0xA4400004_00000000_00000000, .abort { en0 with a := .s 2 })] : List (Nat × Instr)).all (fun p => decodeTableWord 96 p.1 == some p.2) = true := by
  decide

theorem test_decode_system :
    ([
      (0xF0000100_00000247_00000000, .srd { sy0 with d := .s 1, sysn := 583 }),
      (0xF0100004_00000010_00000000, .swr { sy0 with a := .s 2, sysn := 16 }),
      (0xF0200000_00000000_00000000, .eret sy0),
      (0xF0300000_00200000_00000000, .tlbiDom { sy0 with c := .s 4 }),
      (0xF0300004_00201000_00000000, .tlbiPage { sy0 with a := .s 2, c := .s 4, x := 1 }),
      (0xF0300004_0C202000_00000000, .tlbiRange { sy0 with a := .s 2, b := .s 3, c := .s 4, x := 2 }),
      (0xF0300000_00003000_00000000, .tlbiAll { sy0 with x := 3 }),
      (0xF4000104_00000000_00000000, .preemptTask { sy0 with d := .s 1, a := .s 2 }),
      (0xF4000104_00001000_00000000, .preemptGang { sy0 with d := .s 1, a := .s 2, x := 1 }),
      (0xF4000104_00002000_00000000, .preemptCompact { sy0 with d := .s 1, a := .s 2, x := 2 }),
      (0xF4100104_00000000_00000000, .resumeTask { sy0 with d := .s 1, a := .s 2 }),
      (0xF4100104_00001000_00000000, .resumeGang { sy0 with d := .s 1, a := .s 2, x := 1 }),
      (0xF4100104_00002000_00000000, .resumeCompact { sy0 with d := .s 1, a := .s 2, x := 2 }),
      (0xF4200104_00000000_00000000, .haltg { sy0 with d := .s 1, a := .s 2 }),
      (0xF4300104_0C000000_00000000, .salvage { sy0 with d := .s 1, a := .s 2, b := .s 3 })] : List (Nat × Instr)).all (fun p => decodeTableWord 96 p.1 == some p.2) = true := by
  decide

/-! Ill-formed terms, one for each check (04 R94). -/

def alu : ScF := { sc0 with d := .s 8, a := .s 5, b := .s 6 }
def ldf : MemF := { me0 with d := .s 9, a := .s 2, size := 3 }
def vv : VecF := { ve0 with d := .v 1, a := .v 2, b := .v 3 }
def whm : WhF := { wh0 with a := .s 10, b := .s 11, fmta := 7, fmtb := 9 }

/-- Each instruction is refused with its detail. -/
def refused (l : List (Instr × Nat)) : Bool := l.all fun p => p.1.check == some p.2 && !WellFormed p.1

theorem test_illformed_scalar :
    refused [
      (.nop { sc0 with hd := ⟨false, 1, false⟩ }, 2), (.nop { sc0 with x := 1 }, 2),
      (.nop { sc0 with d := .s 1 }, 2), (.add { alu with x := 1 }, 2), (.add { alu with c := .s 1 }, 2),
      (.add { alu with ib := true }, 2), (.add { alu with b := .s 0, iz := true }, 2),
      (.add { alu with imm := 1 }, 2), (.add { alu with cond := 1 }, 2), (.add { alu with d := .q 4 }, 3),
      (.add { alu with d := .v 1 }, 3), (.add { alu with a := .q 3 }, 3), (.add { alu with a := .k 1 }, 3),
      (.add { alu with b := .v 0 }, 3), (.mad { alu with c := .q 0 }, 3),
      (.add { alu with hd := ⟨true, 1, false⟩ }, 4), (.add { alu with hd := ⟨true, 0, true⟩ }, 4),
      (.add { alu with hd := ⟨true, 0, false⟩, d := .m 1 }, 4),
      (.add { alu with hd := ⟨true, 0, false⟩, a := .m 1 }, 4),
      (.add { alu with hd := ⟨true, 0, false⟩, b := .q 4 }, 4), (.jr { sc0 with hd := ⟨true, 0, false⟩ }, 4),
      (.clz { alu with x := 0 }, 2), (.set { alu with cond := 6 }, 2), (.sel { alu with ty := 1 }, 2),
      (.sext { alu with b := .s 0, ty := 3 }, 2), (.zext { alu with b := .s 0, ty := 3 }, 2)] = true := by
  decide

theorem test_illformed_address :
    refused [
      (.lea { alu with x := 8 }, 2), (.lea { alu with ib := true }, 2), (.bfx { alu with ty := 0 }, 2),
      (.bfx { alu with b := .s 0, ib := true, ty := 3, imm := 0 }, 2),
      (.bfx { alu with b := .s 0, ib := true, ty := 3, imm := 0x8100 }, 2),
      (.bfx { alu with b := .s 0, ib := true, ty := 3, imm := 0x140 }, 2),
      (.bfx { alu with b := .s 0, ib := true, ty := 3, imm := 0x4101 }, 2),
      (.bfx { alu with b := .s 0, ib := true, ty := 3, imm := 0x4001 }, 2), (.bfi { alu with ty := 1 }, 2),
      (.zord { alu with x := 64 + 12 }, 2), (.zord { alu with x := 704 + 12 }, 2),
      (.zord { alu with x := 192 + 4 }, 2), (.zord { alu with x := 192 + 44 }, 2),
      (.zord { alu with x := 192 + 13 }, 2), (.zdec { alu with x := 204 }, 2), (.mov { sc0 with x := 2 }, 2),
      (.mov { sc0 with x := 1 }, 2), (.mov { sc0 with x := 1, d := .k 1, a := .k 2 }, 2),
      (.mov { sc0 with d := .v 1 }, 3), (.mov { sc0 with a := .q 0 }, 3), (.li { fl0 with modl := 1 }, 2),
      (.li { fl0 with d := .q 4 }, 3), (.li { fl0 with hd := ⟨true, 0, false⟩ }, 4),
      (.ret { sc0 with a := .q 4 }, 3), (.ret { sc0 with d := .s 1 }, 2), (.trapi { sc0 with ib := true }, 2),
      (.exit { sc0 with x := 1 }, 2), (.yield { sc0 with imm := 1 }, 2)] = true := by
  decide

theorem test_illformed_control :
    refused [
      (.jmp { fb0 with link := true }, 2), (.jmp { fb0 with slot := 5 }, 2), (.jmp { fb0 with a := .s 1 }, 2),
      (.jmp { fb0 with b := .s 1 }, 2), (.call fb0, 2), (.call { fb0 with link := true, a := .m 1 }, 3),
      (.loop { fb0 with a := .q 4 }, 3), (.brEq { fb0 with b := .q 4 }, 3), (.brNe { fb0 with a := .v 1 }, 3),
      (.brLtI64 { fb0 with hd := ⟨true, 0, false⟩ }, 4)] = true := by
  decide

theorem test_illformed_memory :
    refused [
      (.ld { ldf with x := 1 }, 2), (.ld { ldf with b := .s 1 }, 2), (.ld { ldf with c := .s 1 }, 2),
      (.ld { ldf with size := 4 }, 2), (.ld { ldf with sgn := true }, 2),
      (.st { ldf with d := .s 0, sgn := true, size := 2 }, 2), (.ld { ldf with order := 1 }, 2),
      (.ld { ldf with x := 8, order := 2 }, 2), (.st { ldf with d := .s 0, x := 8, order := 1 }, 2),
      (.ld { ldf with scope := 1 }, 2), (.ld { ldf with x := 8, scope := 6 }, 2),
      (.ld { ldf with x := 8, scopen := 1 }, 2), (.ld { ldf with far := true }, 2),
      (.fence { me0 with order := 4, imm := 1 }, 2), (.fence me0, 2), (.fence { me0 with order := 4, x := 2 }, 2),
      (.fence { me0 with order := 4, a := .s 1 }, 2), (.ld { ldf with a := .m 1 }, 3),
      (.ld { ldf with d := .q 4 }, 3), (.st { ldf with d := .s 0, b := .q 0 }, 3),
      (.st { ldf with d := .s 0, hd := ⟨true, 0, false⟩ }, 4), (.ldp { ldf with size := 4, c := .s 9 }, 2),
      (.ldp { ldf with size := 3 }, 2), (.stp { ldf with d := .s 0 }, 2),
      (.pref { ldf with d := .s 0, size := 0, x := 4 }, 2), (.wbl { ldf with d := .s 0, size := 0, x := 8 }, 2),
      (.amoAdd { ldf with size := 1 }, 2), (.amoAdd { ldf with order := 5 }, 2),
      (.amoFaddFp32 { ldf with size := 3 }, 2), (.cas { ldf with size := 4 }, 3),
      (.cas { ldf with size := 5 }, 2), (.cas { ldf with d := .s 8, size := 4, hd := ⟨true, 0, false⟩ }, 4),
      (.mcas { ldf with size := 3 }, 2), (.iold { ldf with order := 2 }, 2),
      (.iost { ldf with d := .s 0, order := 1 }, 2)] = true := by
  decide

theorem test_illformed_vector :
    refused [
      (.vadd { vv with fmt := 3 }, 2), (.vadd { vv with x := 1 }, 2), (.vadd { vv with imm := 1 }, 2),
      (.vadd { vv with imm := 0x1000, rnd := 4 }, 2), (.vadd { vv with imm := 0x8000, rnd := 4 }, 2),
      (.vadd { vv with c := .v 1 }, 2), (.vperm { vv with sb := true, b := .s 1 }, 2),
      (.vadd { vv with fmt2 := 1 }, 2), (.vadd { vv with rnd := 5 }, 2), (.vmin { vv with rnd := 1 }, 2),
      (.kpop { ve0 with d := .q 4, a := .k 1, zm := true }, 2), (.vadd { vv with nov := true }, 2),
      (.agen { ve0 with hd := ⟨false, 1, false⟩ }, 2), (.agen { ve0 with fmt := 1 }, 2),
      (.rep { ve0 with imm := 512 }, 2), (.rep { ve0 with imm := 0x180 }, 2), (.vadd { vv with d := .s 1 }, 3),
      (.vadd { vv with a := .s 1 }, 3), (.vadd { vv with sb := true, b := .q 4 }, 3),
      (.vfma { vv with c := .k 1 }, 3), (.qbind { ve0 with d := .v 23 }, 3),
      (.vext { ve0 with d := .q 3, a := .v 1 }, 3), (.vred { ve0 with d := .k 1, a := .v 1 }, 3),
      (.kand { ve0 with d := .k 1, a := .v 1, b := .k 2 }, 3), (.vadd { vv with hd := ⟨true, 0, false⟩ }, 4)] = true := by
  decide

theorem test_illformed_formats :
    refused [
      (.vcmp { vv with d := .k 1, fmt := 16, x := 6 }, 2), (.vcmp { vv with d := .k 1, fmt := 3 }, 2),
      (.vsel { vv with c := .k 1, fmt := 7 }, 2), (.vcvt { vv with b := .s 0, fmt := 8 }, 2),
      (.vcvt { vv with b := .s 0, fmt2 := 10 }, 2), (.vcvt { vv with b := .s 0, fmt := 23, fmt2 := 7 }, 2),
      (.vcvt { vv with b := .s 0, fmt2 := 9, rnd := 1 }, 2),
      (.vcvt { vv with b := .s 0, fmt2 := 5, nov := true }, 2),
      (.vcvt { vv with b := .s 0, fmt2 := 1, imm := 0x2000 }, 2), (.vqnt { vv with b := .s 1, fmt2 := 1 }, 2),
      (.vqnt { vv with b := .s 1, fmt := 3, fmt2 := 3 }, 2),
      (.vqntSout { ve0 with d := .q 4, b := .s 1, fmt2 := 3 }, 2),
      (.vdqnt { vv with b := .s 1, fmt := 1, fmt2 := 10 }, 2),
      (.vdqnt { vv with b := .s 1, fmt2 := 10, rnd := 1 }, 2), (.viadd { vv with fmt := 0 }, 2),
      (.viadd { vv with fmt := 16, x := 2 }, 2), (.vimul { vv with fmt := 16, x := 1 }, 2),
      (.vand { vv with fmt := 16, x := 1 }, 2), (.vld { ve0 with d := .v 1, a := .s 1, fmt := 7 }, 2),
      (.vgath { vv with a := .s 1, fmt := 1 }, 2), (.vbcast { ve0 with d := .v 1, b := .s 1, fmt := 12 }, 2),
      (.vext { ve0 with d := .q 4, a := .v 1, imm := 32 }, 2),
      (.vins { ve0 with d := .v 1, b := .s 1, imm := 32 }, 2), (.vshuf { vv with x := 5 }, 2),
      (.vshuf { vv with x := 4, imm := 33 }, 2), (.vshuf { vv with imm := 1 }, 2),
      (.viota { ve0 with d := .v 1, b := .s 1 }, 2), (.vred { ve0 with d := .v 1, a := .v 1, x := 4 }, 2),
      (.vred { ve0 with d := .v 1, a := .v 1, fmt := 16, x := 3 }, 2),
      (.vscan { ve0 with d := .v 1, a := .v 1, x := 3 }, 2),
      (.vmov { ve0 with d := .v 1, a := .v 1, fmt := 6 }, 2)] = true := by
  decide

theorem test_illformed_wheel :
    refused [
      (.mma { whm with fmta := 0 }, 2), (.mma { whm with fmtb := 0 }, 2), (.mma { whm with d := .s 1 }, 2),
      (.mma { whm with x := 4 }, 2), (.mma { whm with imm := 1 }, 2), (.mldb { whm with acc := true }, 2),
      (.mldc { wh0 with p24 := true }, 2), (.mldc { wh0 with b := .s 1 }, 2),
      (.mldc { wh0 with imm := 0x2000 }, 2), (.mldc { wh0 with imm := 0x20 }, 2),
      (.mknot { wh0 with x := 24 }, 2), (.mlds { wh0 with imm := 0x10000 }, 2),
      (.mspl { wh0 with imm := 0x1000000 }, 2), (.mspl { wh0 with fmta := 1 }, 2),
      (.mrefine { wh0 with x := 24 }, 2), (.mzeroSag { wh0 with x := 3 }, 2),
      (.mzeroBat { wh0 with x := 1, imm := 128 }, 2), (.mzeroRib { wh0 with x := 2, imm := 0x10000 }, 2),
      (.mrd { wh0 with fmta := 8 }, 2), (.mrd { wh0 with x := 10 }, 2), (.mrd { wh0 with x := 32 }, 2),
      (.mrd { wh0 with fmta := 5, x := 16 }, 2), (.mrd { wh0 with imm := 0x20000 }, 2),
      (.mwr { wh0 with x := 1 }, 2), (.mdrain { wh0 with a := .s 1 }, 2), (.mstat { wh0 with a := .m 1 }, 3),
      (.mma { whm with b := .q 0 }, 3), (.mma { whm with hd := ⟨true, 0, false⟩ }, 4)] = true := by
  decide

theorem test_illformed_engine :
    refused [
      (.cpy { en0 with tmo := true }, 2), (.cpy { en0 with x := 1 }, 2), (.cpy { en0 with x := 8 }, 2),
      (.cpy { en0 with cone := 1 }, 2), (.cpy { en0 with c := .s 1 }, 2), (.cpyqf en0, 2),
      (.cpyqf { en0 with imm := 256 }, 2), (.cpyqf { en0 with imm := 1, que := 1 }, 2),
      (.sleept { en0 with cone := 1 }, 2), (.cinit { en0 with x := 3 }, 2),
      (.cinit { en0 with x := 1, a := .s 1 }, 2), (.cinit { en0 with x := 8 }, 2),
      (.arrive { en0 with c := .s 1 }, 2), (.arriveW { en0 with x := 2, trapm := true }, 2),
      (.arriveRmt { en0 with x := 1, cone := 1 }, 2), (.arriveRmt { en0 with x := 3 }, 2),
      (.expect { en0 with x := 1 }, 2), (.cwait { en0 with rlx := true }, 2), (.ctest { en0 with x := 8 }, 2),
      (.evsig { en0 with x := 2 }, 2), (.mutexu { en0 with imm := 1 }, 2), (.msend { en0 with imm := 1 }, 2),
      (.msend { en0 with x := 0x20, imm := 16 }, 2), (.msend { en0 with x := 0x2F, imm := 1 }, 2),
      (.mtake en0, 3), (.mpeek { en0 with a := .m 1, x := 1 }, 2), (.join { en0 with b := .s 1 }, 2),
      (.join { en0 with x := 2 }, 2), (.rtake { en0 with d := .s 1, c := .s 1 }, 2),
      (.spawn { en0 with a := .m 1 }, 3), (.spawn { en0 with d := .q 4 }, 3),
      (.arrive { en0 with hd := ⟨true, 0, false⟩ }, 4), (.tself { en0 with x := 1 }, 2)] = true := by
  decide

theorem test_illformed_system :
    refused [
      (.srd { sy0 with sysn := 7 }, 2), (.srd { sy0 with sysn := 0x1A }, 2), (.srd { sy0 with sysn := 0x248 }, 2),
      (.srd { sy0 with x := 1 }, 2), (.srd { sy0 with imm := 1 }, 2), (.swr { sy0 with sysn := 0 }, 2),
      (.swr { sy0 with sysn := 0x301 }, 2), (.swr { sy0 with d := .s 1, sysn := 0x10 }, 2),
      (.swr { sy0 with a := .q 3, sysn := 0x10 }, 3), (.swr { sy0 with sysn := 0x10, hd := ⟨true, 0, false⟩ }, 4),
      (.eret { sy0 with sysn := 1 }, 2), (.tlbiDom { sy0 with a := .s 1 }, 2), (.tlbiAll { sy0 with x := 4 }, 2),
      (.preemptTask { sy0 with x := 3 }, 2), (.resumeTask { sy0 with b := .s 1 }, 2),
      (.haltg { sy0 with x := 1 }, 2), (.salvage { sy0 with c := .s 1 }, 2)] = true := by
  decide

theorem test_illformed_event :
    refused [
      (.uGroupComplete 512 0 0, 0), (.frameLineFetch 0 64, 0), (.streamGroupRead 0 8, 0),
      (.streamGroupWrite 0 8, 0), (.recordDispatch 4096 0, 0), (.recordDispatch 0 4, 0), (.queueAging 8 0, 0),
      (.queueAging 0 16, 0), (.joinHeldPush 8, 0), (.gangWake 0 4096, 0), (.wireRequestServe 8 0, 0),
      (.wheelCommandStart 512, 0), (.wheelCommandComplete 512 true, 0), (.damperGrant 512, 0),
      (.copyStart 512 0, 0), (.copyComplete 512 0, 0), (.latePromiseExpiry 512 0, 0),
      (.cpyqfFenceComplete 512 0, 0), (.ioldCompletion 0 3 0, 0), (.dirRead 512 0, 0),
      (.dirReadForOwnership 512 0, 0), (.dirUpgrade 512 0, 0), (.dirFarOperation 512 0, 0),
      (.dirWriteback 512 0, 0), (.dirInvlEvict 512 0, 0), (.forwardedPinAccess 512 0 8 none, 0),
      (.forwardedPinAccess 0 (2 ^ 40) 8 none, 0), (.forwardedPinAccess 0 0 9 none, 0), (.updatePush 512 0 8 0, 0),
      (.throttleWindow 512, 0), (.foldComplete 8, 0), (.homeLossDeclare 8, 0), (.deviceArrivalReport 0 1024, 0),
      (.abortToken 0 65536, 0), (.pldmKilnlogRead 8, 0), (.bar2Read false (2 ^ 40) 1, 0),
      (.bar2Write false (2 ^ 40) [0], 0), (.hseqWrite false 64 0, 0), (.dconsWrite false 64 0, 0),
      (.hconsWrite 64 0, 0), (.dseqWrite 64 0, 0), (.msixUnmask false 64, 0), (.mbportWrite 64 false, 0),
      (.measurementAppend 0 [], 0), (.attestationReport [], 0), (.dqringWrite 8 0 0, 0), (.dqringWrite 0 16 0, 0),
      (.scopeWrite 16 0, 0), (.wheelFootprintWrite 4 0, 0), (.ethernetLinkChange 8 true, 0),
      (.cleanCopyDrop 512 0, 0), (.bar0MailboxWrite false 64 0 [], 0), (.bar0MailboxWrite false 0 4096 [0], 0)] = true := by
  decide

/-! A small state: one task of domain 0 in tile 0, its PC in a line of its own. -/

/-- s1 to s8 hold 0x8040, 0x1000, 3, 4, 0x8000_0000, all ones, 0 and 0; q0 is empty and q4 holds 7 and 8. -/
def tk : Task :=
  { Task.blank with
    pc := 0x8000
    s := vecOf 64 [0, 0x8040, 0x1000, 3, 4, 0x80000000, 0xFFFFFFFFFFFFFFFF, 0, 0] 0
    q := vecOf 8 [[], [], [], [], [7, 8]] [] }

/-- Every vector entry holds 0x9000, and slot 0 of the line there may be entered. -/
def vectors : Mem := (List.range 48).map (fun c => (8 * c + 1, 0x90)) ++ [(0x903C, 1)]

def st : State :=
  { State.reset with
    mem := vectors, tasks := [(1, tk)], cur := 1, cx := { Cx.reset with pc := 0x8000, next := 0x800C, first := 0x8000 } }

/-- The state with other registers in its task. -/
def stWith (f : Task → Task) : State := { st with tasks := [(1, f tk)] }

/-- The instruction answers a next state with the property. -/
def gives (i : Instr) (s : State) (p : State → Bool) : Bool :=
  match exec i s with
  | .next t => p t
  | _ => false

/-- It completes with the property. -/
def done (i : Instr) (s : State) (p : State → Bool) : Bool := gives i s fun t => t.cx.fate == .done && p t

/-- It takes a cause; the property is of the trap. -/
def traps (i : Instr) (s : State) (p : Trap → Bool) : Bool :=
  gives i s fun t => t.cx.fate == .trapped && match t.cx.trap with
    | some x => p x.1
    | none => false

def s8 (t : State) : Word := t.me.sreg 8


/-! The scalar family. -/

/-- The table of worked examples after 06 R158. -/
theorem test_scalar_table :
    (([(.add { sc0 with d := .s 8, a := .s 5, b := .s 5, ty := 3 }, 0x0000000100000000),
      (.add { sc0 with d := .s 8, a := .s 5, b := .s 5, ty := 2 }, 0),
      (.div { sc0 with d := .s 8, a := .s 5, b := .s 6, ty := 2 }, 0xFFFFFFFF80000000),
      (.rem { sc0 with d := .s 8, a := .s 5, b := .s 6, ty := 2 }, 0),
      (.div { sc0 with d := .s 8, a := .s 5, b := .s 7, ty := 7 }, 0xFFFFFFFFFFFFFFFF),
      (.rem { sc0 with d := .s 8, a := .s 5, b := .s 7, ty := 7 }, 0x80000000),
      (.mulh { sc0 with d := .s 8, a := .s 6, b := .s 6, ty := 7 }, 0xFFFFFFFFFFFFFFFE),
      (.mulh { sc0 with d := .s 8, a := .s 6, b := .s 6, ty := 3 }, 0),
      (.sar { sc0 with d := .s 8, a := .s 5, ib := true, ty := 2, imm := 31 }, 0xFFFFFFFFFFFFFFFF),
      (.shr { sc0 with d := .s 8, a := .s 5, ib := true, ty := 6, imm := 35 }, 0x10000000),
      (.set { sc0 with d := .s 8, a := .s 5, b := .s 7, ty := 2, cond := 2 }, 1),
      (.set { sc0 with d := .s 8, a := .s 5, b := .s 7, ty := 6, cond := 2 }, 0),
      (.min { sc0 with d := .s 8, a := .s 5, b := .s 7, ty := 2 }, 0xFFFFFFFF80000000),
      (.clz { sc0 with d := .s 8, a := .s 7, ty := 3 }, 0x40),
      (.bfx { sc0 with d := .s 8, a := .s 5, ib := true, ty := 3, imm := 0x41C }, 0xFFFFFFFFFFFFFFF8),
      (.bfx { sc0 with d := .s 8, a := .s 5, ib := true, ty := 7, imm := 0x41C }, 8)] : List (Instr × Word)).all
        fun p => done p.1 st fun t => s8 t == p.2) = true := by decide +kernel

/-- The positions of 06 R150: 54 of (5, 6), and 57 of the transposed view; 57 decomposes into 6 + 5 × 2^32. -/
theorem test_zorder_examples :
    let s := stWith fun t => { t with s := vecOf 64 [0, 0, 0, 0, 57, 5, 6] 0 }
    (done (.zord { sc0 with d := .s 8, a := .s 5, b := .s 6, x := 204 }) s (fun t => s8 t == 54)
      && done (.zord { sc0 with d := .s 8, a := .s 5, b := .s 6, x := 206 }) s (fun t => s8 t == 57)
      && done (.zdec { sc0 with d := .s 8, a := .s 4, x := 204 }) s (fun t => s8 t == 6 + 5 * 2 ^ 32)) = true := by decide +kernel

/-- The operands of the scalar statements: sources of each kind, a destination, a true and a false predicate. -/
theorem test_witness_operands :
    Runs st hd0 ∧ Reads st (.s 5) 0x80000000 st ∧ ReadsB st { alu with ib := true, imm := 0xFFFFFFFF } 0xFFFFFFFFFFFFFFFF st
      ∧ Reads st (.q 4) 7 (st.upd fun t => t.setQ 4 [8]) ∧ Reads st (.m 1) 0 st
      ∧ Writes st (.s 8) 1 (st.upd fun t => t.setS 8 1) ∧ Writes st (.s 0) 1 (st.upd fun t => t.setS 0 1)
      ∧ Writes st (.q 0) 1 (st.upd fun t => t.setQ 0 [1]) ∧ Writes st (.m 1) 1 (st.upd fun t => t.writeM 1 1)
      ∧ (st.pred ⟨false, 0, true⟩).getLsbD 0 = false ∧ st.ready = true :=
  ⟨⟨rfl, rfl, rfl⟩, ⟨trivial, rfl, rfl⟩, ⟨rfl, rfl⟩, ⟨List.cons_ne_nil _ _, rfl, rfl⟩, ⟨trivial, rfl, rfl⟩, ⟨trivial, rfl⟩,
    ⟨trivial, rfl⟩, ⟨(by decide : 0 < 16), rfl⟩, ⟨trivial, rfl⟩, rfl, rfl⟩

/-- A write of s0 is discarded; a false predicate lets nothing happen; an empty q register stalls. -/
theorem test_scalar_edges :
    (done (.add { alu with d := .s 0 }) st (fun t => t.me.s == tk.s)
      && done (.add { alu with hd := ⟨false, 0, true⟩ }) st (fun t => t.tasks == st.tasks)
      && gives (.add { alu with a := .q 5 }) st (fun t => t.cx.fate == .stalled && t.tasks == st.tasks)
      && done (.mad { sc0 with d := .s 8, a := .s 3, b := .s 4, c := .s 3, ty := 3 }) st (fun t => s8 t == 15)
      && done (.bfi { sc0 with d := .s 8, a := .s 6, b := .s 3, c := .s 7 }) st (fun t => s8 t == 0xFFFFFFFFFFFFFFFF)
      && done (.lea { sc0 with d := .s 8, a := .s 2, b := .s 3, x := 3, imm := 0xFFFFFFF8 }) st (fun t => s8 t == 0x1010)
      && done (.mov { sc0 with d := .k 1, a := .s 6, x := 1 }) st
          (fun t => t.me.kreg 1 == 0xFFFFFFFFFFFFFFFF0000000000000000#128)
      && done (.mov { sc0 with d := .s 8, a := .k 0, x := 1 }) st (fun t => s8 t == 0xFFFFFFFFFFFFFFFF)) = true := by decide +kernel

/-! Control transfers and exceptions. -/

/-- CALL links to the slot after its bundle; a LOOP of count 1 falls through; a far target takes the address fault. -/
theorem test_control :
    (done (.call { fb0 with a := .s 63, link := true, off := 1 }) st
        (fun t => t.me.sreg 63 == 0x800C && t.cx.target == some (0x8040, 1))
      && done (.loop { fb0 with a := .s 3, off := -1, slot := 1 }) st
        (fun t => t.me.sreg 3 == 2 && t.cx.target == some (0x7FCC, 0))
      && done (.loop { fb0 with a := .s 3, off := 1 }) (stWith fun t => t.setS 3 1) (fun t => t.me.sreg 3 == 0 && t.cx.target == none)
      && done (.brLtI64 { fb0 with a := .s 6, b := .s 7, off := 1 }) st (fun t => t.cx.target == some (0x8040, 0))
      && done (.brLtZ64 { fb0 with a := .s 6, b := .s 7, off := 1 }) st (fun t => t.cx.target == none)
      && done (.ret { sc0 with a := .s 1 }) st (fun t => t.cx.target == some (0x8040, 2))
      && traps (.jmp { fb0 with off := 0x2000000000000 }) st (fun x => x.cause == 5)
      && traps (.jr { sc0 with a := .s 6 }) st (fun x => x.cause == 5 && x.addr == 0xFFFFFFFFFFFFFFFF)) = true := by decide +kernel


/-- TRAPI and opcode 0xFFF enter the handler of their vector: what is saved, and where. -/
theorem test_exception_entry :
    (gives (.trapi { sc0 with imm := 7 }) st (fun t => t.me.pc == 0x9000 && t.me.ipc == 0x800C
        && t.me.faultinfo == 0x1E00000000000007 && t.me.status == 1 && t.me.saved == [])
      && gives (.illegalOpcodeFff 0) st (fun t => t.me.pc == 0x9000 && t.me.ipc == 0x8000
        && t.me.faultinfo == 0x0105000000000FFF && t.me.faultaddr == 0x8000)
      && (match st.vectorEntry 1 5 with
          | .go pc checked _ => pc == 0x9000 && checked
          | _ => false)) = true := by decide +kernel

/-- The fields of FAULTINFO at the ends of their ranges. -/
theorem test_faultinfo :
    ({ cause := 255, detail := 255, w := true, pw := true, level := 3, info := some 0xFFFFFFFF } : Trap).info' true 0
        = 0xFFFFEC00FFFFFFFF#64
      ∧ ({ cause := 0 } : Trap).info' false 4095 = 0xFFF#64 := by decide +kernel

/-! The memory family. -/

/-- Sixteen bytes at 0x1000, a counter of 3 at 0x2000. -/
def mst : State :=
  st.setMem ((vectors.write 0x1000 (natBytes 0xFFEEDDCCBBAA99888877665544332211 16)).write 0x2000 [3])

def at' (f : MemF) (r : Reg) (imm : Nat) : MemF := { f with a := r, imm := BitVec.ofNat 32 imm }
def ldd : MemF := { me0 with d := .s 8, a := .s 2, size := 3 }
def std : MemF := { me0 with a := .s 2, b := .s 6, size := 3 }

/-- The place that the checks of an access give. -/
def placeOf (s : State) (a : Acc) : Option Nat :=
  match s.check s.whoMe a with
  | .ok pa _ => some pa
  | _ => none

/-- The checks of the memory statements' accesses pass, and nothing waits. -/
theorem test_witness_access :
    (placeOf mst (dataAcc 0x1000 8 false) == some 0x1000 && placeOf mst (dataAcc 0x1000 16 true) == some 0x1000
      && placeOf mst (atomAcc 0x1008 8 false) == some 0x1008 && placeOf mst (lineAcc 0x1001) == some 0x1001
      && placeOf mst (dataAcc 0x8000000000000 8 false) == some 0x8000000000000
      && physClass 0xFFFFFFFFFF == .hbm && physClass 0x10000000000 == .reserved && physClass 0x8000000000000 == .control
      && !mst.spanWait 0x1000 16 true && !mst.relWait
      && (mst.scopeInst 0 0 4 0).isSome && (match mst.rmwCheck mst.whoMe 0x1000 8 none with
        | .ok pa tr => pa == 0x1000 && !tr.chk
        | _ => false)) = true := by decide +kernel

/-- Three tables at 0x20000, 0x30000 and 0x40000: entries 1 and 2 of the first, 1 to 5 of the second and 1 to 8 of the third show a
fault or a class; entry 0 leads on, or maps 0x10000 for reading; 32 to 63 are a page of 2 MiB and 6 and 7 of the second one of 1 GiB. -/
def pst : State :=
  let tab := fun (m : Mem) (a : Nat) (l : List Nat) => m.write a (l.flatMap fun w => natBytes w 8)
  let m1 := tab mst.mem 0x20000 [0x30001, 0, 0x30003]
  let m2 := tab m1 0x30000 [0x40001, 0, 0x40005, 0x20001, 0x10007, 0x200C7, 0x4000008F, 0x4000008F]
  let m3 := tab m2 0x40000 [0x10007, 0, 0x10001, 0x1C00000000010007, 0x1000B, 0x10000000007, 0xC00000001000F, 0x8000000010007, 0x8F]
  (mst.setMem (tab m3 0x40100 (List.replicate 32 0x20004F))).setDom 0 { Dom.reset with ptroot := 0x20000, ptSet := true }

/-- What the checks of an access of 8 bytes at `va` answer: a cause with its level, or the place. -/
def verdict (s : State) (va : Nat) (wr : Bool) : Option (Nat × Nat) :=
  match s.check s.whoMe (dataAcc (BitVec.ofNat 64 va) 8 wr) with
  | .ok pa _ => some (0, pa)
  | .trap t => some (t.cause, t.level)
  | _ => none

/-- Each clause of the statement on access checks, at a state that meets its premises. -/
theorem test_access_checks :
    let l1 := 2 ^ 42
    let l2 := 2 ^ 29
    let l3 := 2 ^ 16
    ((pst.tlb == [] && pst.lost == [] && pst.poison == [] && pst.foldstat == 0 && pst.lockWaits == []
        && pst.tasks.all fun t => t.2.mcas.isNone)
      && verdict mst (2 ^ 55) false == some (5, 0) && verdict mst 0x1001 false == some (6, 0)
      && verdict mst (2 ^ 52) false == some (7, 1) && verdict mst (2 ^ 52 - 8) false == some (9, 0)
      && verdict pst 0x8 false == some (0, 0x10008) && verdict pst 0x8 true == some (8, 0)
      && verdict pst l1 false == some (7, 1) && verdict pst (2 * l1) false == some (0x0A, 1)
      && verdict pst l2 false == some (7, 2) && verdict pst (2 * l2) false == some (0x0A, 2)
      && verdict pst (4 * l2) false == some (0x0A, 2) && verdict pst (5 * l2) false == some (0x0A, 2)
      && verdict pst (7 * l2 + 8) true == some (0, 0x60000008)
      && verdict pst l3 false == some (7, 3) && verdict pst (2 * l3) false == some (0x0A, 3)
      && verdict pst (3 * l3) false == some (0x0A, 3) && verdict pst (4 * l3) false == some (0x0A, 3)
      && verdict pst (5 * l3) false == some (9, 0) && verdict pst (6 * l3) false == some (9, 0)
      && verdict pst (7 * l3) false == some (0, 0x8000000010000) && verdict pst (8 * l3) false == some (0x0A, 3)
      && verdict pst (33 * l3 + 16) true == some (0, 0x210010)) = true := by decide +kernel

theorem test_loads :
    (done (.ld ldd) mst (fun t => s8 t == 0x8877665544332211)
      && done (.ld { at' ldd (.s 2) 7 with size := 0, sgn := true }) mst (fun t => s8 t == 0xFFFFFFFFFFFFFF88)
      && done (.ld { at' ldd (.s 2) 6 with size := 1 }) mst (fun t => s8 t == 0x8877)
      && done (.ld { ldd with x := 8, order := 1, scope := 4 }) mst (fun t => s8 t == 0x8877665544332211)
      && done (.ldp { ldd with c := .s 9, size := 4 }) mst
          (fun t => s8 t == 0x8877665544332211 && t.me.sreg 9 == 0xFFEEDDCCBBAA9988)
      && traps (.ld (at' ldd (.s 2) 4)) mst (fun x => x.cause == 6 && x.addr == 0x1004)
      && traps (.ld ldd) (stWith fun t => t.setS 2 0x80000000000000) (fun x => x.cause == 5)
      && traps (.ldp { at' ldd (.s 2) 8 with c := .s 9, size := 4 }) mst (fun x => x.cause == 6)) = true := by decide +kernel

theorem test_stores :
    (done (.st std) mst (fun t => t.mem.num 0x1000 9 == 0x88FFFFFFFFFFFFFFFF && t.mem.num 0xFFF 1 == 0)
      && done (.st { at' std (.s 2) 2 with size := 1, b := .s 3 }) mst (fun t => t.mem.num 0x1000 8 == 0x8877665500032211)
      && done (.st { std with x := 8, order := 2, scope := 4 }) mst (fun t => t.mem.num 0x1000 8 == 0xFFFFFFFFFFFFFFFF)
      && done (.stp { std with c := .s 3, size := 4 }) mst (fun t => t.mem.num 0x1000 16 == 3 * 2 ^ 64 + 0xFFFFFFFFFFFFFFFF)
      && traps (.st (at' std (.s 2) 1)) mst (fun x => x.cause == 6 && x.w)
      && traps (.stp { at' std (.s 2) 8 with c := .s 3, size := 4 }) mst (fun x => x.cause == 6 && x.addr == 0x1008)
      && traps (.st { at' std (.s 2) 4 with x := 8, order := 2, scope := 4 }) mst (fun x => x.cause == 6 && x.w)
      && traps (.ld { at' ldd (.s 2) 4 with x := 8, order := 1, scope := 4 }) mst (fun x => x.cause == 6)
      && traps (.amoAdd { me0 with d := .s 8, a := .s 2, b := .s 3, size := 3, order := 2, scope := 4, imm := 4 }) mst (fun x => x.cause == 6)
      && done (.zerol { me0 with a := .s 2, imm := 5 }) mst (fun t => t.mem.num 0x1000 16 == 0 && t.mem.num 0x2000 8 == 3)
      && done (.pref { me0 with a := .s 6 }) mst (fun t => t.mem == mst.mem && t.tasks == mst.tasks)) = true := by
  decide +kernel

/-- Each AMO on 0x8877665544332211 and 3, or on its low word. -/
theorem test_amos :
    let f : MemF := { me0 with d := .s 8, a := .s 2, b := .s 3, size := 3, order := 4, scope := 4 }
    let g : MemF := { f with size := 2 }
    (([(.amoAdd f, 0x8877665544332214), (.amoAnd f, 1), (.amoOr f, 0x8877665544332213), (.amoXor f, 0x8877665544332212),
       (.amoSmin f, 0x8877665544332211), (.amoSmax f, 3), (.amoZmin f, 3), (.amoZmax f, 0x8877665544332211), (.amoSwap f, 3),
       (.amoFmaxFp32 g, 0x8877665544332211), (.amoFaddFp32 g, 0x8877665544332211)] : List (Instr × Nat)).all
        fun p => done p.1 mst fun t => t.mem.num 0x1000 8 == p.2 && (s8 t == 0x8877665544332211 || s8 t == 0x44332211))
      = true := by decide +kernel

theorem test_cas :
    let f : MemF := { me0 with d := .s 8, a := .s 2, b := .s 3, c := .s 4, size := 3, scope := 4 }
    let p : MemF := { f with b := .s 10, c := .s 12, size := 4 }
    let s := mst.upd fun t => (t.setS 10 0x8877665544332211).setS 11 0xFFEEDDCCBBAA9988
    (done (.cas { at' f (.s 2) 0x1000 with size := 3 }) mst (fun t => t.mem.num 0x2000 8 == 4 && s8 t == 3)
      && done (.cas f) mst (fun t => t.mem == mst.mem && s8 t == 0x8877665544332211)
      && traps (.cas (at' f (.s 2) 4)) mst (fun x => x.cause == 6 && x.addr == 0x1004 && x.w)
      && traps (.cas { at' f (.s 6) 0 with order := 2 }) mst (fun x => x.cause == 5)
      && done (.cas p) s (fun t => t.mem.num 0x1000 16 == 0 && s8 t == 0x8877665544332211 && t.me.sreg 9 == 0xFFEEDDCCBBAA9988))
      = true := by decide +kernel

/-- A line that this cluster holds is written back or dropped. -/
theorem test_lines :
    let held := mst.setDir 32 { DirEnt.reset with st := .m 0 }
    let f : MemF := { me0 with a := .s 2 }
    (done (.wbl f) held (fun t => (t.dirEnt 32).st == .e 0) && done (.invl f) held (fun t => (t.dirEnt 32).st == .i)
      && done (.fence { me0 with order := 4, scope := 4 }) mst (fun t => t.mem == mst.mem)) = true := by decide +kernel

/-- A free page is pinned; a pinned one answers 1 to PIN and is released by UNPIN; a free one answers 1 to UNPIN. -/
theorem test_pins :
    let f : MemF := { me0 with d := .s 8, a := .s 2 }
    let u := mst.pinLines 0 0x1000
    (done (.pin f) mst (fun t => s8 t == 0 && (t.dirEnt 127).st == .p 0 0 && (t.dirEnt 128).st == .i)
      && done (.pin f) u (fun t => s8 t == 1)
      && done (.unpin f) u (fun t => s8 t == 0 && (t.dirEnt 127).st == .m 0)
      && done (.unpin f) mst (fun t => s8 t == 1)) = true := by decide +kernel

/-- PCIe: a posted write, a read that waits, and a read whose data has come. -/
theorem test_io :
    let f : MemF := { me0 with d := .s 8, a := .s 9, size := 2 }
    let s := mst.upd fun t => t.setS 9 0xC000000001000
    let back := s.upd fun t => { t with io := some { port := 0, addr := 4096, n := 4, t0 := 0, result := some (0, 0x1_8000_0001) } }
    (done (.iost { f with d := .s 0, b := .s 3 }) s (fun t => t.outputs == [.ioWrite 0 4096 [3, 0, 0, 0]])
      && gives (.iold f) s (fun t => t.cx.fate == .held && t.outputs == [.ioRead 0 4096 4] && t.me.io.isSome)
      && done (.iold { f with sgn := true }) back (fun t => s8 t == 0xFFFFFFFF80000001 && t.me.io == none)
      && traps (.iold f) (s.upd fun t => { t with io := some { port := 0, addr := 4096, n := 4, t0 := 0, result := some (2, 0) } })
          (fun x => x.cause == 0x1D && x.detail == 2)
      && traps (.iost { f with d := .s 0, b := .s 3, a := .s 2 }) s (fun x => x.cause == 9)) = true := by decide +kernel

/-- An MCAS block of two entries at 0x3000. -/
def mcasMem (e1 : Nat) : State :=
  (mst.setMem (mst.mem.write 0x3000 (([2, 0, 0, 0, 0x1000, e1, 1, 0, 0x2000, 3, 2, 0] : List Nat).flatMap fun w => natBytes w 8))).upd
    fun t => t.setS 9 0x3000

/-- Both words match and are replaced; or the first differs, its number is the status and both are kept. -/
theorem test_mcas :
    let f : MemF := { me0 with d := .s 8, a := .s 9, scope := 4 }
    (done (.mcas f) (mcasMem 0x8877665544332211) (fun t => s8 t == 0 && t.mem.num 0x1000 8 == 1 && t.mem.num 0x2000 8 == 2
        && t.mem.num 0x3038 8 == 0x8877665544332211 && t.mem.num 0x3058 8 == 3)
      && done (.mcas f) (mcasMem 5) (fun t => s8 t == 1 && t.mem.num 0x1000 8 == 0x8877665544332211 && t.mem.num 0x2000 8 == 3
        && t.mem.num 0x3058 8 == 3)) = true := by decide +kernel

/-- A load of XDELAY's reset value in device control space, a store to it, and an offset that the manual leaves open. -/
theorem test_control_space :
    let s := mst.upd fun t => t.setS 9 0x8000000010100
    (done (.ld { ldd with a := .s 9 }) s (fun t => s8 t == 0x30D40)
      && done (.st { std with a := .s 9 }) s (fun t => (t.die 0).xdelay == 0xFFFFFFFF && t.mem == mst.mem)
      && done (.ld { at' ldd (.s 9) 1 with size := 0 }) s (fun t => s8 t == 0x0D)
      && done (.ld { ldd with a := .s 9, x := 8, order := 1, scope := 4 }) s (fun t => s8 t == 0x30D40)
      && done (.st { at' std (.s 9) 2 with size := 1, b := .s 3 }) s (fun t => (t.die 0).xdelay == 0x30D40 % 65536 + 3 * 65536)
      && done (.st { std with a := .s 9, x := 8, order := 2, scope := 4 }) s (fun t => (t.die 0).xdelay == 0xFFFFFFFF)
      && done (.ldp { ldd with a := .s 10, c := .s 11, size := 4 }) (s.upd fun t => t.setS 10 0x8000000010400)
          (fun t => s8 t == 0 && t.me.sreg 11 == 0)
      && done (.stp { std with a := .s 10, c := .s 4, size := 4 }) (s.upd fun t => t.setS 10 0x8000000010400)
          (fun t => (t.die 0).dqring[0] == 0x800FFFFFFFFFF00F && (t.die 0).dqring[1] == 4)
      && (match exec (.ld (at' ldd (.s 9) 16)) s with
        | .refused (.undescribedControl pa) => pa == 0x8000000010110
        | _ => false)) = true := by decide +kernel


/-! The vector family. -/

/-- A register whose every element of `w` bits is `x`. -/
def splat (w x : Nat) : VReg := BitVec.ofNat 1024 (x * ((2 ^ 1024 - 1) / (2 ^ w - 1)))

/-- v1, v2 and v3 hold 1.0, 4.0 and 2.0 in FP32, v5 the integer 1, v6 the numbers 0 to 31; k1 lets element 0 through. -/
def vt : Task :=
  { tk with
    s := vecOf 64 [0, 0x8040, 0x1000, 3, 4] 0
    v := vecOf 32 [0, splat 32 0x3F800000, splat 32 0x40800000, splat 32 0x40000000, 0, splat 32 1,
                   BitVec.ofNat 1024 ((List.range 32).foldr (fun i x => i + 2 ^ 32 * x) 0)] 0
    k := vecOf 8 [0, 15, 0xF0] 0 }

/-- The state in which the V-stream runs an instruction that captured `scal`. -/
def vst (scal : Word) : State := { mst with tasks := [(1, vt)], cx := { mst.cx with vs := true, scal := scal } }

/-- The lowest two elements of a v register. -/
def els (t : State) (n : BitVec 5) (w : Nat) : List Nat := [vecEl (t.me.vreg n) w 0, vecEl (t.me.vreg n) w 1]

/-- Every instruction completes with these lowest elements of v4. -/
def vgives (scal : Word) (w : Nat) (l : List (Instr × Nat × Nat)) : Bool :=
  l.all fun p => done p.1 (vst scal) fun t => els t 4 w == [p.2.1, p.2.2]

/-- An instruction pushes this into q5. -/
def qgives (scal : Word) (l : List (Instr × Word)) : Bool := l.all fun p => done p.1 (vst scal) fun t => t.me.qlist 5 == [p.2]

def vf : VecF := { ve0 with d := .v 4, a := .v 2, b := .v 3, c := .v 1 }
def vu : VecF := { ve0 with d := .v 4, a := .v 2 }
def vi : VecF := { vf with a := .v 6, b := .v 5, fmt := 18 }
def vq : VecF := { ve0 with d := .q 5, a := .v 2 }

/-- Codes and flags where the clauses of the statement on rounding meet: ties, the last finite values, overflow in each mode, the
flush of BF16, DS8, dither, NaN and infinities (05 R107, R114, R117). -/
theorem test_rounding :
    let r := fun (x : XV) (c mode : Nat) (conv nov : Bool) => roundFmt x c mode 0 conv nov
    (r (.fin 464) 3 0 true false == (0x7E, fNX) && r (.fin 465) 3 0 true false == (0x7E, fNX ||| fOF ||| fSAT)
      && r (.fin 465) 3 0 true true == (0x7F, fNX ||| fOF) && r (.fin 65519) 1 0 false false == (0x7BFF, fNX)
      && r (.fin 65520) 1 0 false false == (0x7C00, fNX ||| fOF) && r (.fin 70000) 1 1 false false == (0x7BFF, fNX ||| fOF)
      && r (.fin (-70000)) 1 2 false false == (0xFBFF, fNX ||| fOF) && r (.fin (-70000)) 1 3 false false == (0xFC00, fNX ||| fOF)
      && r (.fin (pow2 (-127))) 2 0 false false == (0, fUF ||| fNX) && r (.fin (-pow2 (-126))) 2 0 false false == (0x8080, 0)
      && r (.fin (pow2 (-126) * (511 / 512))) 2 2 false false == (0x0080, fUF ||| fNX)
      && r (.fin (pow2 (-150))) 0 0 false false == (0, fUF ||| fNX) && r (.fin (-pow2 (-150))) 0 0 false false == (0x80000000, fUF ||| fNX)
      && r (.fin (3 * pow2 (-150))) 0 0 false false == (2, fUF ||| fNX)
      && r (.fin (5 / 2)) 18 0 true false == (2, fNX) && r (.fin (255 / 2)) 16 0 true false == (127, fNX ||| fOF ||| fSAT)
      && r (.fin (-1 / 2)) 20 0 true false == (0, fNX) && r (.fin (-1)) 20 1 true false == (0, fNX ||| fOF ||| fSAT)
      && r (.fin (257 / 128)) 9 0 true false == (satCode 9 false, fOF ||| fNX ||| fSAT)
      && r (.zero true) 9 0 true false == (0x77, 0) && r (.nan false) 9 0 true false == (0x77, fNV)
      && roundFmt (.fin (1 + pow2 (-24))) 0 4 4095 false false == (0x3F800001, fNX)
      && roundFmt (.fin (1 + pow2 (-24))) 0 4 0 false false == (0x3F800000, fNX) && bitRev12 1 == 2048
      && r (.nan true) 0 0 false false == (0x7FC00000, 0) && r (.nan false) 7 0 true false == (0, fNV)
      && r (.inf true) 5 0 true false == (0x3F, fSAT) && r (.inf true) 3 0 true true == (0x7F, 0)
      && r (.inf false) 4 0 true false == (0x7C, 0) && r (.zero true) 3 0 true false == (0x80, 0)
      && dec 7 7 == .fin 6 && dec 3 0x7E == .fin 448 && dec 2 0x7F == .zero false && dec 9 0xFF == .zero false) = true := by
  decide +kernel

/-- 4.0 and 2.0 under each rounded operation (c is 1.0); 4.0 scaled by 2^1; under k1 only element 0 is written. -/
theorem test_rounded :
    (vgives 0 32 [(.vadd vf, 0x40C00000, 0x40C00000), (.vsub vf, 0x40000000, 0x40000000), (.vmul vf, 0x41000000, 0x41000000),
        (.vdiv vf, 0x40000000, 0x40000000), (.vfma vf, 0x41100000, 0x41100000), (.vfms vf, 0x40E00000, 0x40E00000),
        (.vfnma vf, 0xC0E00000, 0xC0E00000), (.vsqrt vu, 0x40000000, 0x40000000), (.vrcp vu, 0x3E800000, 0x3E800000),
        (.vrsq vu, 0x3F000000, 0x3F000000), (.vexp2 vu, 0x41800000, 0x41800000), (.vlog2 vu, 0x40000000, 0x40000000),
        (.vadd { vf with hd := ⟨false, 1, false⟩ }, 0x40C00000, 0)]
      && vgives 1 32 [(.vscale { vf with b := .s 1, sb := true }, 0x41000000, 0x41000000)]) = true := by decide +kernel

theorem test_exact :
    (vgives 0 32 [(.vabs vu, 0x40800000, 0x40800000), (.vneg vu, 0xC0800000, 0xC0800000), (.vmin vf, 0x40000000, 0x40000000),
        (.vmax vf, 0x40800000, 0x40800000), (.vabsmax vf, 0x40800000, 0x40800000), (.vclass vu, 0x100, 0x100),
        (.vsel { vf with c := .k 1 }, 0x40800000, 0x40000000), (.vmov vu, 0x40800000, 0x40800000)]
      && done (.vcmp { vf with d := .k 3, x := 4 }) (vst 0) (fun t => t.me.kreg 3 == BitVec.allOnes 128)
      && done (.vcmp { vi with d := .k 3, x := 2 }) (vst 0) (fun t => t.me.kreg 3 == 15)) = true := by decide +kernel

/-- 4.0 to an i32 and to q8 under the bounds 4.0 and 8.0 (127, and 63.5 rounded to 64), back from q8, and the scale. -/
theorem test_conversions :
    (vgives 0x40800000 32 [(.vcvt { vu with fmt2 := 18 }, 4, 4)]
      && vgives 0x40800000 8 [(.vqnt { vu with b := .s 1, fmt2 := 10 }, 127, 127)]
      && vgives 0x41000000 8 [(.vqnt { vu with b := .s 1, fmt2 := 10 }, 64, 64)]
      && vgives 0x42FE0000 32 [(.vdqnt { vu with a := .v 5, b := .s 1, fmt2 := 10 }, 0x3F800000, 0)]
      && qgives 0xC0800000 [(.vqntSout { ve0 with d := .q 5, b := .s 1, fmt2 := 10, x := 1 }, 0x40800000)]) = true := by
  decide +kernel

/-- The numbers 0 to 31 with 1 under each integer operation. -/
theorem test_integers :
    vgives 0 32 [(.viadd vi, 1, 2), (.visub vi, 0xFFFFFFFF, 0), (.visub { vi with fmt := 22, x := 1 }, 0, 0), (.vimul vi, 0, 1),
      (.vimin vi, 0, 1), (.vimax vi, 1, 1), (.vand vi, 0, 1), (.vor vi, 1, 1), (.vxor vi, 1, 0), (.vshl vi, 0, 2), (.vshr vi, 0, 0),
      (.vsar { vi with a := .v 3, b := .v 6 }, 0x40000000, 0x20000000)] = true := by decide +kernel

theorem test_moves :
    (vgives 9 32 [(.vbcast { vu with a := .s 0, b := .s 1 }, 9, 9), (.vins { vu with a := .s 0, b := .s 1, imm := 1 }, 0, 9),
        (.viota { vu with a := .s 0, b := .s 1, fmt := 18 }, 9, 10), (.vperm { vi with b := .v 6, a := .v 6 }, 0, 1),
        (.vshuf { vi with a := .v 6 }, 0, 1), (.vshuf { vi with a := .v 6, x := 4, imm := 31 }, 31, 1),
        (.vred { vu with a := .v 5, fmt := 18 }, 32, 0), (.vscan { vu with a := .v 6, fmt := 18 }, 0, 1),
        (.vscan { vu with a := .v 5, fmt := 18 }, 1, 2)]
      && qgives 0 [(.vext { vq with a := .v 6, imm := 31 }, 31), (.vred vq, 0x43000000)]) = true := by decide +kernel

theorem test_masks :
    let k : VecF := { ve0 with d := .k 3, a := .k 1, b := .k 2 }
    let q : VecF := { ve0 with d := .q 5, a := .k 2 }
    ((([(.kand k, 0), (.kor k, 0xFF), (.kxor k, 0xFF), (.knot k, ~~~15#128), (.kmov k, 15), (.kmov { k with d := .k 0 }, 0),
        (.kor { k with hd := ⟨false, 2, false⟩ }, 0xF0)] : List (Instr × KReg)).all
        fun p => done p.1 (vst 0) fun t => t.me.kreg 3 == p.2)
      && qgives 0 [(.kpop q, 4), (.kfirst q, 4), (.kfirst { q with hd := ⟨false, 1, false⟩ }, 128)]) = true := by decide +kernel

/-- Vector loads and stores at 0x1000 under k1, whose one active element is element 0; a strided load; a scatter. -/
theorem test_vector_memory :
    let on : Hd := ⟨false, 1, false⟩
    (vgives 0x1000 32 [(.vld { vu with hd := on, a := .s 2 }, 0x44332211, 0), (.vlds { vu with a := .s 2, imm := 4 }, 0x44332211, 0x88776655),
        (.vgath { vf with hd := on, a := .s 2, imm := 4, b := .v 6 }, 0x88776655, 0)]
      && done (.vst { vf with d := .s 0, hd := on, a := .s 2, b := .v 2, c := .s 0 }) (vst 0x1000)
          (fun t => t.mem.num 0x1000 8 == 0x8877665540800000)
      && done (.vscat { vf with d := .s 0, hd := on, a := .s 2, b := .v 6, c := .v 2, x := 2 }) (vst 0x1000)
          (fun t => t.mem.num 0x1000 8 == 0x8877665540800000)
      && traps (.vld { vu with hd := on, a := .s 2, imm := 2 }) (vst 0x1000) (fun x => x.cause == 6)) = true := by decide +kernel

/-- A descriptor of two groups at 0x1000, and generator 0 that walks them, bound to v24. -/
def gen2 : Gen := { Gen.reset with base := 0x1000, ext := vecOf 4 [2, 1, 1, 1] 0, str := vecOf 4 [128] 0, valid := true }

def gst (g : Gen) : State :=
  let s := vst 0x3000
  (s.setMem (s.mem.write 0x3000 (natBytes (0x1000 + 2 ^ 64 * (2 + 2 ^ 32 * (1 + 2 ^ 32 * (1 + 2 ^ 32 * (1 + 2 ^ 32 * 128))))) 48))).upd
    fun t => { t with gens := vecOf 8 [g] Gen.reset }

theorem test_streams :
    let b : Gen := { gen2 with bound := true }
    (done (.agen { ve0 with a := .s 2 }) (gst Gen.reset) (fun t => t.me.gens[0] == gen2)
      && done (.qbind { ve0 with d := .v 24 }) (gst gen2) (fun t => t.me.gens[0] == b)
      && done (.vmov { vu with a := .v 24 }) (gst b) (fun t => els t 4 32 == [0x44332211, 0x88776655] && t.me.gens[0].pos == 1)
      && traps (.vmov { vu with a := .v 24 }) (gst { b with pos := 2 }) (fun x => x.cause == 0x15)
      && traps (.vmov { vu with d := .v 24 }) (gst b) (fun x => x.cause == 0x13)
      && done (.qfree { ve0 with d := .v 24 }) (gst { b with last := some (splat 32 1) })
          (fun t => !t.me.gens[0].bound && els t 24 32 == [1, 1])
      && done (.qfree { ve0 with d := .v 31 }) (gst gen2) (fun t => t.tasks == (gst gen2).tasks)
      && done (.rep { ve0 with a := .s 2, imm := 0x11 }) (vst 65536) (fun _ => true)
      && traps (.rep { ve0 with a := .s 2, imm := 0x11 }) (vst 65537) (fun x => x.cause == 0x0E)) = true := by decide +kernel

/-- Elements: the active one of four holds the new code, the others zero under ZM and else their old code. -/
theorem test_elements :
    let g := fun e => (e + 5, (if e = 0 then 1 else 2 : Flags))
    (vecEl (putEls 15 true 32 (List.range 32) g (splat 32 7)).1 32 0 == 5
      && vecEl (putEls 15 true 32 (List.range 32) g (splat 32 7)).1 32 1 == 0
      && vecEl (putEls 15 false 32 (List.range 32) g (splat 32 7)).1 32 31 == 7
      && (putEls 15 false 32 (List.range 32) g (splat 32 7)).2 == 1) = true := by decide +kernel


/-! The Wheel. -/

/-- A task whose footprint is the whole Wheel, with the address 0x1000 in s2, operands in s9 and s10 and half a knot in s11. -/
def wst (b c : Word) : State :=
  mst.upd fun t => { ((t.setS 9 b).setS 10 c).setS 11 0x3F80000000000000 with wfsag := 0x4000000, wfbat := BitVec.allOnes 64, wfrib := 0x4000000, wfkn := 0xFFFFFF }

def wf : WhF := { wh0 with a := .s 2, b := .s 9, c := .s 10 }
def mm : WhF := { wf with fmta := 1, fmtb := 1 }

/-- A command of each form enters queue 0, and MDRAIN completes while none is there. -/
theorem test_wheel_queued :
    (([(.mldb mm, 0x20000000003, 0x8000000), (.mldc { wf with b := .s 0, imm := 0x100 }, 0, 0),
       (.mknot { wf with a := .s 11, c := .s 0 }, 0x301, 0), (.mlds { wf with b := .s 0 }, 0, 0),
       (.mma mm, 0x6000000003, 0x8000400), (.mspl { wf with b := .s 0, imm := 1 }, 0, 0x400), (.msdx { wf with b := .s 2, imm := 1 }, 0, 0x400),
       (.msgrad { wf with b := .s 2, imm := 1 }, 0, 0x400), (.mrefine { wf with a := .s 0, b := .s 0 }, 0, 0),
       (.mzeroSag { wf with a := .s 0, b := .s 0 }, 0, 0x400), (.mzeroBat { wf with a := .s 0, b := .s 0, x := 1, imm := 1 }, 0, 0),
       (.mzeroRib { wf with a := .s 0, b := .s 0, x := 2 }, 0, 0), (.mrd { wf with imm := 0x100 }, 0x1000000004, 0x400),
       (.mwr { wf with imm := 0x100 }, 0x1000000004, 0x400), (.mstat { wf with b := .s 0, c := .s 0 }, 0, 0)] :
        List (Instr × Word × Word)).all fun p =>
          done p.1 (wst p.2.1 p.2.2) fun t => ((t.wheel 0).queue 0).map (·.id) == [1]) = true := by decide +kernel

/-- A gang of every tile of clusters 0 to 3, to which task 1 belongs. -/
def gang1 : Gang :=
  { code := 0x8000, arg := 0, dom := 0, prio := 0, since := 0, cidx := 0, tmask := 0xFF, tiles := List.range 32, joinp := 0,
    started := true, pending := false, seq := 0, resv := [], tasks := [1], halted := false, stopping := false, clk := [], endClk := [] }

def inGang (s : State) : State := ({ s with gangs := [(1, gang1)] } : State).upd fun t => { t with gang := some 1 }

/-- MMAC enters queue 8 of four clusters, and takes the operand fault outside a gang; MDRAIN; the faults of operands. -/
theorem test_wheel_checks :
    let s := (inGang (wst 0x6000000003 0x8000400)).upd fun t => { t with wfsag := 0x84000000 }
    (done (.mmac mm) s (fun t => (List.range 4).all fun k => ((t.wheel k).queue 8).map (·.id) == [1])
      && traps (.mmac mm) (wst 0x6000000003 0x8000400) (fun x => x.cause == 0x17)
      && traps (.mma mm) ((wst 0x6000000003 0x8000400).upd fun t => { t with wfbat := 0 }) (fun x => x.cause == 0x17)
      && traps (.mma mm) (wst 0x6000000003 0x400) (fun x => x.cause == 0x17)
      && traps (.mstat { wf with a := .s 3, b := .s 0, c := .s 0 }) mst (fun x => x.cause == 6 && x.addr == 3)
      && traps (.mstat { wf with a := .s 6, b := .s 0, c := .s 0 }) mst (fun x => x.cause == 5)
      && done (.mdrain wh0) mst (fun t => t.tasks == mst.tasks)) = true := by decide +kernel

/-- What MKNOT, MZERO, MLDS and MLDC leave in the Wheel, and the premises of MLDB (09 R231 to R235): its view of no passes is read,
and a third nonzero value in a pruned group has no form. -/
theorem test_wheel_loads :
    let run := fun (i : Instr) (a b c : Word) (p : Wheel → Bool) =>
      match wheelRun mst 0 (mst.wheelCmd i a b c) with
      | .ok (fl, t) => fl == 0 && p (t.wheel 0)
      | .error _ => false
    (run (.mknot { wf with x := 5 }) 7 9 0 (fun w => w.knot 5 == 9 * 2 ^ 64 + 7 && w.knot 4 == 0)
      && run (.mzeroSag wf) 0 0 0x403 (fun w => w.sagAt 3 255 == 0)
      && run (.mzeroBat { wf with imm := 2 }) 0 0 0x600000 (fun w => w.tag 3 == .zero && w.tag 4 == .zero && w.tag 5 == .empty
          && w.bVal 3 9 false 0 0 == .zero false)
      && run (.mzeroRib { wf with imm := 3 }) 0 0 0 (fun w => w.rib == [])
      && run (.mlds { wf with imm := 1 }) 0x1001 0 0x700000000 (fun w => w.rib == [(7, 0x22), (8, 0x33)])
      && (match mst.readRange (mst.whoCmd (mst.wheelCmd (.mldc wf) 0 0 0)) 0x1000 10240 with
        | .ok (bs, _) => bs.length == 10240
        | _ => false)
      && wheelPair 3 3 && (match mst.readView (mst.whoCmd (mst.wheelCmd (.mldb wf) 0 0 0)) 0 (layoutOf 0) 8 0 256 with
        | .ok (rows, _) => rows == []
        | _ => false)
      && pruneGroup 3 [0, 0x38, 0x80, 0x40] == some (1 + 4 * 3 + 16 * (0x38 + 256 * 0x40))
      && pruneGroup 3 [1, 2, 3, 0] == none) = true := by decide +kernel

/-- A Wheel whose slots are all of a spline, with a knot register of degree 1 and 4 intervals from -2 (05, the worked example). -/
def spst : State :=
  let w := (List.range 60).foldl (fun (x : Wheel) i => x.setTag i .spline) (mst.wheel 0)
  mst.setWheel 0 (w.setKnot 0 (BitVec.ofNat 128 (0xC0000000 + 0x3F800000 * 2 ^ 32 + 4 * 2 ^ 64 + 2 ^ 72)))

/-- The premises of the statement on what the commands compute: zero slots serve an MMA, a set knot register and spline slots a
spline command; the views and the rows are read; and the places of an MRD and of a record are writable. -/
theorem test_wheel_computes :
    let who := mst.whoCmd (mst.wheelCmd (.mma mm) 0 0 0)
    let zeroed := mst.setWheel 0 ((List.range 6).foldl (fun (x : Wheel) i => x.setTag i .zero) (mst.wheel 0))
    let ok := fun {α : Type} (x : Except Chk α) => match x with
      | .ok _ => true
      | .error _ => false
    let fails := fun (s : State) (i : Instr) (n : Nat) => match wheelRun s 0 (s.wheelCmd i 0x1000 0x1000 0x8000400) with
      | .error (.fault k _ _ _, _) => k == n
      | _ => false
    let one := fun (s : State) (i : Instr) (a b c : Word) (p : State → Bool) => match wheelRun s 0 (s.wheelCmd i a b c) with
      | .ok (_, t) => p t
      | .error _ => false
    (mmaTags (zeroed.wheel 0) mm 0x8000400 && !mmaTags (mst.wheel 0) mm 0x8000400 && fails mst (.mma mm) 5
      && ok (mst.readView who 0x1000 (layoutOf 0x6000000003) 16 1 48)
      && fails mst (.mspl { wf with imm := 1 }) 2 && fails (spst.setWheel 0 ((spst.wheel 0).setTag 59 .empty)) (.msdx { wf with imm := 1 }) 5
      && (match splineReady (spst.wheel 0) 0 [0] with
        | .ok _ => true
        | .error _ => false)
      && ok (match readX mst who 0x1000 1 [0] with
        | .ok x => .ok x
        | .error _ => .error .stall)
      && ok (match readG mst who 0x1000 1 with
        | .ok x => .ok x
        | .error _ => .error .stall)
      && fails mst (.mrefine wf) 2 && knotOk ((spst.wheel 0).knot 0) && fails (spst.setWheel 0 ((spst.wheel 0).setTag 0 .empty)) (.mrefine wf) 5
      && ok (mst.placeBits who (8 * 0x1000) 32) && ok (mst.writeRange who 0x1000 (mst.mstatRecord 1))
      && one (mst.setWheel 0 ((mst.wheel 0).setSag 1 2 0x3F800000)) (.mrd { wf with imm := 0x102 }) 0x1000 0x1000000004 0x401
          (fun t => t.mem.num 0x1000 4 == 0x3F800000)
      && one (mst.setMem [(0x1003, 0x40)]) (.mwr { wf with imm := 0x102 }) 0x1000 0x1000000004 0x401
          (fun t => (t.wheel 0).sagAt 1 2 == 0x40000000)
      && one mst (.mstat wf) 0x1000 0 0 (fun t => t.mem.num 0x1000 64 == 0)) = true := by decide +kernel

/-- The worked example of 05: x = 0.75 in the grid and x = 3.0 above it, in the modes CLAMP, LINEAR and ZERO. -/
theorem test_spline_example :
    let k : Cell := { coef := fun i => fxQ (([0, 1, 1 / 2, -1, 2] : List Rat).getD i 0), wb := fxQ (1 / 4) }
    let kn := fun (mode : Nat) => ({ lo := fxQ (-2), invh := fxQ 1, g := 4, deg := 1, mode := mode } : Knot)
    ((splineCell (fxQ (3 / 4)) (kn 0) k).1 == .fin (-7 / 16) && (splineFprime (fxQ (3 / 4)) (kn 0) k).1 == .fin (-5 / 4)
      && splineCell (fxQ 3) (kn 0) k == (.fin (11 / 4), fOUT) && splineCell (fxQ 3) (kn 1) k == (.fin (23 / 4), fOUT)
      && splineCell (fxQ 3) (kn 2) k == (.fin (3 / 4), fOUT)) = true := by decide +kernel

/-- The state after an instruction or event. -/
def after (i : Instr) (s : State) : State :=
  match exec i s with
  | .next t => t
  | _ => s

/-- An MZERO of the rib runs at its start and ends at its completion, which counts it for its task. -/
theorem test_wheel_events :
    let s := after (.mzeroRib { wf with a := .s 0, b := .s 0, x := 2, imm := 3 }) (wst 0 0x500000000)
    let dirty := s.updClus 0 fun k => { k with wheel := { k.wheel with rib := Mem.write [] 0 (List.replicate 16 7) } }
    (gives (.wheelCommandStart 0) dirty (fun t => (t.wheel 0).rib.num 0 16 == 0x07070707070707000000000707070707
        && ((t.wheel 0).queue 0).map (·.begun) == [[0]])
      && gives (.wheelCommandComplete 0 false) (after (.wheelCommandStart 0) dirty) (fun t => (t.wheel 0).queue 0 == []
        && t.me.wdone == 1)) = true := by
  decide +kernel


/-! Cones (10). -/

def cone0 : Cone := { Cone.reset with init := true, e := 2 }

/-- Cone 5 of tile 0 as given. -/
def cst (c : Cone) : State := mst.setCone 0 5 c

def cf : EngF := { en0 with cone := 5 }
def at5 (t : State) : Cone := t.cone 0 5

/-- Arrivals: the first of two, the last one, and the forms that wait, with a deadline in the past or none. -/
theorem test_cone_arrivals :
    let one := { cone0 with a := 1 }
    (done (.cinit { cf with a := .s 3 }) mst (fun t => at5 t == { cone0 with e := 3 })
      && traps (.cinit { cf with a := .s 7 }) mst (fun x => x.cause == 0x0E)
      && done (.arrive cf) (cst cone0) (fun t => (at5 t).a == 1 && !(at5 t).phase)
      && done (.arrive { cf with rlx := true }) (cst one) (fun t => (at5 t).a == 0 && (at5 t).phase)
      && done (.arriveW { cf with d := .s 8, x := 2 }) (cst one) (fun t => s8 t == 0 && (at5 t).phase)
      && gives (.arriveW { cf with d := .s 8, x := 2 }) (cst cone0)
          (fun t => t.cx.fate == .held && (at5 t).a == 1 && (at5 t).waiters == [1] && waitKind t.me.wait == 1)
      && done (.arriveW { cf with d := .s 8, x := 2 }) ((cst cone0).upd fun t => { t with wait := 1, wake := some 1 })
          (fun t => s8 t == 1)
      && done (.expect { cf with a := .s 4 }) (cst one) (fun t => (at5 t).pb == 4 && (at5 t).a == 2 && !(at5 t).phase)
      && done (.arriveRmt { en0 with b := .s 3, x := 1 }) mst (fun t => t.rarrs.map (·.signal) == [false])
      && done (.evsigRmt { en0 with b := .s 3, x := 1 }) mst (fun t => t.rarrs.map (·.signal) == [true])) = true := by
  decide +kernel

theorem test_cone_waits :
    let w : EngF := { cf with d := .s 8, a := .s 7 }
    let ev := { cone0 with mode := 1, e := 0 }
    let mx := { cone0 with mode := 2, e := 0 }
    (done (.cwait w) (cst { cone0 with phase := true }) (fun t => s8 t == 0)
      && gives (.cwait w) (cst cone0) (fun t => t.cx.fate == .held && (at5 t).waiters == [1])
      && done (.cwait { w with tmo := true, c := .s 7 }) (cst cone0) (fun t => s8 t == 1)
      && done (.cwait w) ((cst cone0).upd fun t => { t with wait := 1, wake := some 0 }) (fun t => s8 t == 0 && t.me.wait == 0)
      && done (.ctest { cf with d := .s 8 }) (cst { cone0 with a := 1, phase := true }) (fun t => s8 t == 0x0002000100000009)
      && done (.ctest { cf with d := .s 8, x := 2 }) (cst { cone0 with pb := -5 }) (fun t => s8 t == 0xFFFFFFFFFFFFFFFB)
      && done (.evsig cf) (cst { ev with waiters := [1] }) (fun t => (at5 t).phase && (at5 t).waiters == [])
      && done (.mutexl { cf with d := .s 8 }) (cst mx) (fun t => s8 t == 0 && (at5 t).holder == handleOf 0 1)
      && done (.mutexl { cf with d := .s 8 }) ((cst mx).upd fun t => { t with wait := 1, wake := some 1 }) (fun t => s8 t == 1)
      && done (.mutexu cf) (cst { mx with holder := handleOf 0 1 }) (fun t => (at5 t).phase && (at5 t).holder == 0)
      && done (.mutexu cf) (cst { mx with holder := handleOf 0 1, lockers := [1] }) (fun t => (at5 t).holder == handleOf 0 1)
      && traps (.mutexu cf) (cst mx) (fun _ => true)) = true := by decide +kernel

/-! Copies. -/

/-- A descriptor at 0x4000 of `n` FP32 elements from 0x1000 to 0x5000, its address in s9. -/
def cpst (n : Nat) : State :=
  (mst.setMem (mst.mem.write 0x4000 (([0x1000, 0x5000, 0, 0, n, 0, 1, 0, 1, 0, 1, 0, 1, 0, 1, 0] : List Nat).flatMap
    fun w => natBytes w 8))).upd fun t => t.setS 9 0x4000

def cp : EngF := { en0 with d := .s 8, a := .s 9, que := 3 }

/-- The copies of cluster 0. -/
def copies (t : State) : List Copy := (t.clus 0).copies

theorem test_copy_commands :
    (done (.cpy cp) (cpst 4) (fun t => (copies t).map (fun c => (c.mask, c.desc, c.promise)) == [(8, 0x4000, s8 t)] && s8 t != 0)
      && traps (.cpy cp) (cpst 0) (fun x => x.cause == 0x1A && x.addr == 0x4000)
      && done (.cpyr { cp with b := .s 0, c := .s 0 }) (cpst 4) (fun t => (copies t).length == 1)
      && done (.cpyqf { en0 with d := .s 8, imm := 9 }) mst (fun t => (copies t).map (fun c => (c.op, c.mask)) == [(.fence, 9)])
      && done (.sleept { en0 with a := .s 7 }) mst (fun _ => true)
      && gives (.sleept { en0 with a := .s 3 }) mst (fun t => t.cx.fate == .held && t.me.deadline == some 3)) = true := by
  decide +kernel

/-- A copy of four elements runs, completes and is gone; a late one, a fence and a heavy one. -/
theorem test_copy_events :
    let q := after (.cpy cp) (cpst 4)
    let id := ((copies q).map (·.id)).headD 0
    let f := after (.cpyqf { en0 with d := .s 8, imm := 9 }) mst
    (gives (.copyStart 0 id) q (fun t => t.mem.num 0x5000 16 == 0xFFEEDDCCBBAA99888877665544332211 && (copies t).map (·.done) == [4])
      && gives (.copyComplete 0 id) (after (.copyStart 0 id) q) (fun t => copies t == [] && t.me.copied.length == 1)
      && gives (.latePromiseExpiry 0 id) { q with cycle := 0x100000 } (fun t => (copies t).map (·.late) == [true]
          && t.me.pend.length == 1)
      && gives (.cpyqfFenceComplete 0 1) f (fun t => copies t == [])
      && gives (.copyStart 0 id) (q.updClus 0 fun k => { k with copies := k.copies.map fun c => { c with heavy := true } })
          (fun t => (t.clus 0).damperQ.length == 1)
      && gives (.damperGrant 0) (after (.copyStart 0 id)
          (q.updClus 0 fun k => { k with copies := k.copies.map fun c => { c with heavy := true } }))
          (fun t => (t.clus 0).damperQ == [] && (copies t).map (·.granted) == [true])) = true := by decide +kernel


/-! Messages and tasks (10). -/

/-- Eight-byte words stored from an address on. -/
def put8 (s : State) (a : Nat) (l : List Nat) : State := s.setMem (s.mem.write a (l.flatMap fun w => natBytes w 8))

/-- Structures of 32 bytes at 0x6000 (a record), 0x6020 (a gang of tile 0 of cluster 0) and 0x6040 (a range block); every
ring of die 0 has room; frame 5 is the pool of domain 0. The address 0x6000 is in s9. -/
def kst : State :=
  (((put8 mst 0x6000 [0x7000, 0, 42, 0, 0x7000, 9, 0x80200, 0, 10, 30, 0x300000002, 0]).updDie 0 fun d =>
    { d with dqring := .replicate 16 0x8000000000000000 }).setDom 0 { Dom.reset with pool := some [5] }).upd fun t => t.setS 9 0x6000

def ke (imm : Nat) : EngF := { en0 with d := .s 8, a := .s 9, imm := BitVec.ofNat 32 imm }

theorem test_messages :
    let mf := fun (s : State) => s.upd fun t => t.setM 5 77 true []
    (done (.msend { en0 with d := .s 8, a := .s 3, b := .s 4, x := 5 }) mst (fun t => t.me.sends.length == 1
          && t.sends.map (fun m => (m.handle, m.reg, m.words, m.blk, m.status)) == [(3, 5, [4], false, none)])
      && done (.msend { en0 with d := .s 8, a := .s 3, b := .s 2, x := 37, imm := 1 }) mst (fun t =>
          t.sends.map (fun m => (m.words, m.blk)) == [([0x8877665544332211, 0xFFEEDDCCBBAA9988], true)])
      && done (.msend { en0 with d := .s 8, a := .s 3, b := .s 4, c := .s 4, x := 21 }) mst (fun t =>
          t.sends.map (fun m => (m.dev, m.status)) == [(4, some 2)])
      && done (.mtake { en0 with d := .s 8, a := .m 5 }) (mf mst) (fun t => s8 t == 77 && !t.me.isFull 5)
      && done (.mtake { en0 with d := .s 8, a := .m 5 }) mst (fun t => s8 t == 0)
      && done (.mpeek { en0 with d := .s 8, a := .m 5 }) (mf mst) (fun t => s8 t == 1 && t.me.isFull 5)
      && done (.mpeek { en0 with d := .s 8, a := .m 5 }) mst (fun t => s8 t == 0)
      && done (.mwaitf { en0 with d := .s 8, a := .m 5 }) (mf mst) (fun t => s8 t == 0 && t.me.isFull 5)
      && done (.mwaitf { en0 with d := .s 8, a := .m 5, tmo := true, c := .s 7 }) mst (fun t => s8 t == 1)
      && gives (.mwaitf { en0 with d := .s 8, a := .m 5, tmo := true, c := .s 3 }) mst
          (fun t => t.cx.fate == .held && waitKind t.me.wait == 2 && t.me.deadline == some 3)) = true := by decide +kernel

theorem test_task_instructions :
    let zero : Instr := .join { en0 with d := .s 8, a := .s 1, b := .s 3, x := 1, imm := 0xFFFF9FC0 }
    let joined := put8 kst 0x2000 [3, 0x6000]
    let full := joined.updDie 0 fun d => { d with dqring := .replicate 16 0 }
    (done (.spawn (ke 0)) kst (fun t => s8 t == 0
          && ((t.die 0).queue 0).map (fun r => (r.code, r.frame, r.arg, r.ctl)) == [(0x7000, 0, 42, 0)])
      && done (.spawn (ke 0)) (kst.updDie 0 fun d => { d with dqring := .replicate 16 0 }) (fun t => s8 t == 1)
      && traps (.spawn { ke 0 with trapm := true }) (kst.updDie 0 fun d => { d with dqring := .replicate 16 0 })
          (fun x => x.cause == 0x23 && x.detail == 3)
      && traps (.spawn (ke 0)) (put8 kst 0x6018 [4]) (fun x => x.cause == 0x11)
      && done (.gang (ke 0x20)) kst (fun t => s8 t == 0
          && t.gangs.map (fun g => (g.2.code, g.2.arg, g.2.tiles, g.2.pending)) == [(0x7000, 9, [0], true)])
      && done (.join { en0 with d := .s 8, a := .s 1, imm := 0xFFFF9FC0 }) (put8 mst 0x2000 [3])
          (fun t => s8 t == 2 && t.mem.num 0x2000 8 == 2)
      && done zero joined (fun t => s8 t == 0 && t.mem.num 0x2000 8 == 0
          && ((t.die 0).queue 0).map (fun r => (r.code, r.arg)) == [(0x7000, 42)])
      && done zero full (fun t => s8 t == 0 && ((t.die 0).joinHeld).map (·.code) == [0x7000])
      && done zero (full.updDie 0 fun d => { d with joinHeld := List.replicate 64 default })
          (fun t => s8 t == 0 && waitKind t.me.wait == 5 && t.me.joinDie == 0 && t.me.joinRec == some 0x6000)
      && traps zero (put8 joined 0x6018 [4]) (fun x => x.cause == 0x11 && x.addr == 0x6000)
      && traps zero (put8 joined 0x6018 [0x100]) (fun x => x.cause == 0x11)
      && traps (.join { en0 with d := .s 8, a := .s 1, b := .s 4, x := 1, imm := 0xFFFF9FC0 }) mst
          (fun x => x.cause == 0x10 && x.addr == 0x2000)
      && done (.rinit { ke 0x40 with b := .s 3 }) kst (fun t => (t.die 0).ranges.getD 3 Range.reset
          == { lo := 10, hi := 30, next := 10, p := 2, min := 3, dom := 0, valid := true })
      && traps (.rinit { ke 0x20 with b := .s 3 }) kst (fun x => x.cause == 0x0E)
      && done (.rtake { en0 with d := .s 8, c := .s 10, b := .s 3 }) (after (.rinit { ke 0x40 with b := .s 3 }) kst)
          (fun t => s8 t == 10 && t.me.sreg 10 == 10 && ((t.die 0).ranges.getD 3 Range.reset).next == 20)
      && done (.tself { en0 with d := .s 8 }) mst (fun t => s8 t == handleOf 0 1)) = true := by decide +kernel

/-! Events of tasks, dispatch and gangs (02, 21). -/

/-- After the event. -/
def evt (i : Instr) (s : State) (p : State → Bool) : Bool := gives i s p

/-- Task `t` with a property. -/
def hasTask (s : State) (t : Nat) (p : Task → Bool) : Bool := ((s.task? t).map p).getD false

theorem test_task_events :
    let pd : Pend := { code := 0x25, detail := 1, addr := 2, w := false, info := 3, ref := 0 }
    let gn : Gen := { Gen.reset with
      base := 0x1000, ext := vecOf 4 [2, 1, 1, 1] 0, str := vecOf 4 [128, 0, 0, 0] 0, bound := true, vreg := 0, valid := true }
    let go := { gn with dir := true, pos := 1, out := [{ clus := 0, data := [(0x3000, natBytes 5 128)], who := .party 2 }] }
    (evt (.asyncCauseTaken 1) (mst.upd fun t => { t with pend := [{ pd with code := 0x28 }, pd] }) (fun t =>
          t.me.pc == 0x9000 && t.me.ipc == 0x8000 && t.me.faultaddr == 2 && t.me.faultinfo == 0x2501000000000003
            && t.me.hm && t.me.pend == [{ pd with code := 0x28 }])
      && evt (.frameLineFetch 1 63) mst (fun t => t.me.resident == 0x8000000000000000)
      && evt (.waitDeadline 1) (mst.upd fun t => { t with wait := 2, deadline := some 0 }) (fun t => t.me.wake == some 1)
      && evt (.waitDeadline 1) ((cst { cone0 with waiters := [1] }).upd fun t =>
          { t with wait := BitVec.ofNat 64 (5 * 512 + 1), deadline := some 0 }) (fun t => t.me.wake == some 1 && (at5 t).waiters == [])
      && evt (.waitDeadline 1) (mst.upd fun t => { t with wait := 2, deadline := some 1 }) (fun t => t.me.wake == none)
      && evt (.sleeptExpiry 1) (mst.upd fun t => { t with wait := 3, deadline := some 0 }) (fun t => t.me.wake == some 0)
      && evt (.streamGroupRead 1 0) (mst.upd fun t => { t with gens := t.gens.set 0 gn }) (fun t =>
          (t.me.gens[0].fifo.map fun g => vecEl g.data 64 0) == [0x8877665544332211])
      && evt (.streamGroupWrite 1 0) (mst.upd fun t => { t with gens := t.gens.set 0 go }) (fun t =>
            t.mem.num 0x3000 128 == 5 && t.me.gens[0].out == [])) = true := by decide +kernel

/-- A line of one NOP at 0x8000, and a handler of domain 0: task 2 of tile 1, first of the chain; a breakpoint at 0x8000. -/
def fwst : State :=
  ((st.withFetchWord 96 0).setTask 2 { Task.blank with tile := 1, pc := 0x8040 }).setDom 0
    { Dom.reset with hchain := vecOf 8 [handleOf 0 2] 0, bkpt := vecOf 4 [0x8000000000008000] 0 }

/-- Task 1 has forwarded a cause: it stands stopped at 0x8000, and task 2 has the block in its m12 to m15. -/
def forwarded (info : Word) (t : State) : Bool :=
  hasTask t 1 (fun x => x.run == .forwarded && x.faultinfo == info && x.pc == 0x8000 && bit1 x.status 5)
    && hasTask t 2 (fun x => x.m.toList.drop 12 == [handleOf 0 1, info, 0, 0x8000])

theorem test_forwarded_causes :
    (gives (.breakpoint 1) fwst (forwarded 0x3100000000000000)
      && gives (.singleStepTrap 1) (fwst.upd fun t => { t with stepping := true }) (forwarded 0x3000000000000000)
      && gives (.fetchParityRefetch 1) fwst (fun t => t.tasks == fwst.tasks)
      && gives (.fetchParityRefetch 1) (fwst.setMem (fwst.mem.write 0x8000 [1])) (fun t => hasTask t 1 fun x =>
          x.run == .forwarded && x.faultinfo == 0x3800000000000000 && x.faultaddr == 0x8000)) = true := by decide +kernel

theorem test_dispatch_events :
    let q := after (.spawn (ke 0)) kst
    let g := after (.gang (ke 0x20)) kst
    let n := ((g.gangs.map (·.1)).headD 0)
    let w := after (.gangWake n 0) g
    (evt (.recordDispatch 0 1) q (fun t => ((t.die 0).queue 0) == [] && t.tasks.length == 2
          && t.tasks.any fun p => p.1 != 1 && p.2.pc == 0x7000 && p.2.ctx == 1 && p.2.sreg 1 == 42 && p.2.sreg 2 == 0)
      && evt (.recordDispatch 0 0) q (fun t => t.tasks.length == 1)
      && evt (.queueAging 0 0) { q with cycle := 0x40001 } (fun t => (t.die 0).queue 0 == [] && ((t.die 0).queue 1).length == 1)
      && evt (.queueAging 0 0) { q with cycle := 0x40000 } (fun t => ((t.die 0).queue 0).length == 1)
      && evt (.joinHeldPush 0) (kst.updDie 0 fun d => { d with joinHeld := (q.die 0).queue 0 }) (fun t =>
          (t.die 0).joinHeld == [] && ((t.die 0).queue 0).length == 1)
      && evt (.gangWake n 0) g (fun t => ((t.gang? n).map (·.resv)) == some [(0, 1)])
      && evt (.gangStart n) w (fun t => ((t.gang? n).map fun x => (x.pending, x.started)) == some (false, true)
          && t.tasks.any fun p => p.2.gang == some n && p.2.pc == 0x7000 && p.2.sreg 2 == 1 && p.2.sreg 3 == 9)
      && evt (.wireRequestServe 0 0) ((after (.rinit { ke 0x40 with b := .s 3 }) kst).updDie 0 fun d =>
          { d with wireReqs := [{ task := 1, range := 3, init := none }] }) (fun t => t.me.wire == some (.got 10 10))
      && evt (.wireRequestServe 0 0) (kst.updDie 0 fun d => { d with wireReqs := [{ task := 1, range := 3, init := none }] })
          (fun t => t.me.wire == some .fault)) = true := by decide +kernel


/-! Compacts (13). -/

/-- Task 1 alone forms gang 1 of cluster 0; at 0x6000 stand the structures of a compact of that cluster, which pins the page
0x10000 and copies 8 bytes within it in each superstep. The page begins with 0x55. -/
def zst : State :=
  let bytes := [0, 0x6080, 0x6180, 0x61C0, 0, 0, 0, 0].flatMap (fun w => natBytes w 8) ++ List.replicate 64 0
    ++ [0, 0] ++ List.replicate 126 0xFF ++ [1] ++ List.replicate 127 0
    ++ [1, 0, 0x10000, 1, 0, 0, 0, 0, 0x10000, 0x10100, 8].flatMap (fun w => natBytes w 8)
  let cells := ((bytes.zipIdx).map fun p => (0x6000 + p.2, p.1)).filter fun p => p.2 != 0
  ({ mst.setMem (cells ++ [(0x10000, 0x55)]) with
      gangs := [(1, { gang1 with tiles := List.range 8 })] } : State).upd fun t => { t.setS 9 0x6000 with gang := some 1 }

def ze : EngF := { en0 with d := .s 8, a := .s 9 }

/-- The one compact of the device. -/
def compact (s : State) : Compact := s.compacts.headD default

/-- The state after a sequence of instructions and events. -/
def through (s : State) : List Instr → State
  | [] => s
  | i :: l => through (after i s) l

/-- SIGN waits, and completes with 0 when the compact is signed; its page is pinned, and its counter expects 8 bytes. -/
theorem test_compact_signing :
    let signed := through zst [.sign ze, .signingComplete 1]
    (gives (.sign ze) zst (fun t => t.cx.fate == .held && (compact t).st == .signing && (compact t).issued == [(1, 0x6000)]
          && (compact t).badAddr == none && t.me.signed == some none)
      && signed.me.signed == some (some (0, 0)) && (compact signed).st == .compute && (signed.cone 0 127).pb == 8
      && (signed.dirEnt 512).st == .p 1 0 && (signed.dirEnt 639).st == .p 1 0 && (signed.dirEnt 640).st == .i
      && done (.sign ze) signed (fun t => s8 t == 0)
      && gives (.signingComplete 1) (after (.sign ze) (put8 zst 0x6190 [0x10001])) (fun t => t.compacts == []
          && t.me.signed == some (some (4, 0)))
      && traps (.sign ze) mst (fun x => x.cause == 0x1B)) = true := by decide +kernel

/-- A superstep: STEP arrives, the plan moves its bytes, the boundary releases the member, and STEP gives 1. -/
theorem test_compact_superstep :
    let joined := through zst [.sign ze, .signingComplete 1, .sign ze]
    let arrived := through joined [.step ze, .deviceArrivalReport 1 0]
    let moved := after (.planWritePerformed 1) arrived
    let b := after (.boundaryBegin 1) moved
    let r := after (.memberRelease 1) b
    (gives (.step ze) joined (fun t => t.cx.fate == .held && waitKind t.me.wait == 1 && (compact t).stepIssued == [1])
      && (compact arrived).st == .transfer && (compact arrived).sending == [0]
      && moved.mem.num 0x10100 8 == 0x55 && (moved.cone 0 127).pb == 0 && (compact moved).sending == []
      && (compact b).st == .boundary && (compact r).st == .compute && (compact r).step == 1 && (r.cone 0 127).phase
      && r.me.wake == some 0 && done (.step ze) r (fun t => s8 t == 1)
      && traps (.step ze) mst (fun x => x.cause == 0x1B)) = true := by decide +kernel

/-- DISSOLVE ends the compact; CKPT asks for a bisque point; ABORT, and a token, end the members. -/
theorem test_compact_end :
    let joined := through zst [.sign ze, .signingComplete 1, .sign ze]
    let shadows := fun (c : Compact) => { c with shadowA := 0x20000, shadowB := 0x30000 }
    let s := joined.updCompact 1 shadows
    let moved := through joined [.step ze, .deviceArrivalReport 1 0, .planWritePerformed 1]
    let due := moved.updCompact 1 fun c => { shadows c with ckpt := true, committed := some 0, pins := [] }
    let d := through joined [.dissolve ze, .deviceArrivalReport 1 0]
    let b := through d [.planWritePerformed 1, .boundaryBegin 1, .memberRelease 1]
    let e := after (.dissolvingComplete 1) b
    let ended' := fun (t : State) => t.settleCompacts.settleCompacts
    ((compact d).final && (compact b).st == .dissolving && e.compacts == [] && (e.dirEnt 512).st == .m 0
          && !(e.cone 0 127).init && done (.dissolve ze) e (fun t => s8 t == 0)
      && done (.ckpt ze) s (fun t => (compact t).ckpt)
      && (compact (after (.boundaryBegin 1) due)).committed == some 1
      && (after (.boundaryBegin 1) due).mem.num 0x30000 9 == 2 ^ 64 + 1
      && traps (.ckpt ze) joined (fun x => x.cause == 0x1B)
      && gives (.abort { en0 with a := .s 3 }) joined (fun t => (compact t).st == .aborting && (t.task? 1).isNone
          && (ended' t).compacts == [] && (ended' t).notices.any fun n => match n with
            | .abortRecord r => r.length == 64 && r.take 12 == [0, 0, 0, 0, 0, 0, 0, 0, 1, 0, 3, 0]
            | _ => false)
      && traps (.abort { en0 with a := .s 6 }) joined (fun x => x.cause == 0x0E)
      && traps (.abort { en0 with a := .s 3 }) mst (fun x => x.cause == 0x1B)
      && traps (.ckpt ze) moved (fun x => x.cause == 0x1B)
      && gives (.abortToken 1 0xF001) joined (fun t => (t.task? 1).isNone && (ended' t).compacts == [])) = true := by decide +kernel

/-! System instructions (10, 21). -/

def sy (n : Nat) (r : Reg) : SysF := { sy0 with d := r, a := r, sysn := BitVec.ofNat 12 n }

/-- The state with its task in domain 1, where memory is as in domain 0. -/
def dom1 : State := mst.upd fun t => { t with dom := 1 }

theorem test_system_registers :
    (done (.srd (sy 0x300 (.s 8))) mst (fun t => s8 t == 0x8060403020 * 65536 + 0x1008)
      && done (.srd (sy 0x16 (.s 8))) mst (fun t => s8 t == handleOf 0 1)
      && done (.srd (sy 0x17 (.s 8))) (mst.upd fun t => { t with fpflags := 5 }) (fun t => s8 t == 5)
      && done (.swr (sy 0x10 (.s 6))) mst (fun t => t.me.status == 4)
      && done (.swr (sy 0x17 (.s 6))) mst (fun t => t.me.fpflags == 0x1FF)
      && done (.swr (sy 0x11 (.s 2))) (mst.upd fun t => { t with status := 1 }) (fun t => t.me.ipc == 0x1000)
      && done (.swr (sy 0x12 (.s 2))) (mst.upd fun t => { t with status := 1 }) (fun t => t.me.vpc == 0x1000)
      && traps (.swr (sy 0x11 (.s 2))) mst (fun x => x.cause == 4)
      && done (.swr (sy 0x19 (.s 6))) mst (fun t => (t.wheel 0).wt == 0xFFFFFFFFF)
      && done (.swr (sy 0x100 (.s 6))) mst (fun t => (t.dom 0).tvbase == 0x7FFFFFFFFFFE00)
      && done (.swr (sy 0x101 (.s 7))) mst (fun t => (t.dom 0).ptSet)
      && done (.swr (sy 0x102 (.s 6))) mst (fun t => (t.tile 0).domsel[0] == 255)
      && done (.swr (sy 0x10F (.s 3))) mst (fun t => (t.dom 0).hchain[7] == 3)
      && done (.swr (sy 0x123 (.s 6))) mst (fun t => (t.dom 0).bkpt[3] == 0x807FFFFFFFFFFFFF)
      && done (.swr (sy 0x302 (.s 7))) mst (fun t => t.cohctl == 0)
      && done (.swr (sy 0x328 (.s 6))) mst (fun t => t.uetrto == 0xFFFFFFFF)
      && done (.swr (sy 0x329 (.s 7))) mst (fun t => t.uetretry == 1)
      && traps (.swr (sy 0x11 (.s 2))) dom1 (fun x => x.cause == 4)
      && traps (.swr (sy 0x300 (.s 2))) (dom1.upd fun t => { t with status := 1 }) (fun x => x.cause == 4)
      && traps (.swr (sy 0x19 (.s 2))) dom1 (fun x => x.cause == 4)) = true := by decide +kernel

/-- ERET; TLBI; a stop and a resumption of task 2; HALTG; SALVAGE; and the privilege trap outside domain 0. -/
theorem test_privileged :
    let h := mst.upd fun t => { t with status := 0x11, ipc := 0x8040, saved := [⟨0x8000, 1, none, none, []⟩, ⟨0x800C, 2, none, none, []⟩] }
    let tl := { mst with tlb := [{ dom := 1, level := 3, page := 0, entry := 0 }, { dom := 2, level := 3, page := 1, entry := 0 }] }
    let two := (mst.setTask 2 { Task.blank with tile := 1, pc := 0x8040, vq := [⟨0x8040, 0, none, none, []⟩], resident := BitVec.allOnes 64 }).upd fun t => t.setS 9 (handleOf 0 2)
    let p : SysF := { sy0 with d := .s 8, a := .s 9 }
    let stopped := after (.preemptTask p) two
    let orphan := (mst.updDir 32 fun e => { e with st := .o 3, orphan := List.replicate 128 7 }).upd fun t => t.setS 9 0x5000
    (done (.eret sy0) h (fun t => t.cx.target == some (0x8040, 3) && t.me.status == 0 && t.me.vq.map (·.pc) == [0x800C])
      && traps (.eret sy0) mst (fun x => x.cause == 4)
      && done (.tlbiDom { sy0 with c := .s 9 }) (tl.upd fun t => t.setS 9 1) (fun t => t.tlb.map (·.dom) == [2])
      && done (.tlbiPage { sy0 with c := .s 9, a := .s 7 }) (tl.upd fun t => t.setS 9 1) (fun t => t.tlb.map (·.dom) == [2])
      && done (.tlbiRange { sy0 with c := .s 9, a := .s 7, b := .s 3 }) (tl.upd fun t => t.setS 9 1) (fun t => t.tlb.map (·.dom) == [2])
      && done (.tlbiAll sy0) tl (fun t => t.tlb == [])
      && done (.preemptTask p) two (fun t => s8 t == 0 && hasTask t 2 fun x => x.run == .stopped)
      && done (.preemptTask p) stopped (fun t => s8 t == 1)
      && done (.preemptTask { p with a := .s 3 }) two (fun t => s8 t == 2)
      && gives (.resumeTask p) stopped (fun t => t.cx.fate == .held && hasTask t 2 fun x => x.run == .resuming)
      && done (.resumeTask p) (two.updTask 2 fun x => { x with run := .forwarded }) (fun t => s8 t == 0 && hasTask t 2 (·.live))
      && done (.resumeTask p) two (fun t => s8 t == 1)
      && done (.haltg p) two (fun t => s8 t == 0 && (t.task? 2).isNone)
      && done (.salvage { p with a := .s 2, b := .s 9 }) orphan (fun t => s8 t == 0 && t.mem.num 0x5000 1 == 7 && (t.dirEnt 32).st == .i)
      && done (.salvage { p with a := .s 2, b := .s 9 }) mst (fun t => s8 t == 1)
      && [Instr.tlbiAll sy0, .preemptTask p, .resumeGang p, .haltg p, .salvage p].all fun i =>
          traps i dom1 (fun x => x.cause == 4)) = true := by decide +kernel

/-- PREEMPT and RESUME of a compact by a task of domain 0: it stops with its member, and goes on; each answers 1 where there
is nothing to do. -/
theorem test_compact_control :
    let joined := through zst [.sign ze, .signingComplete 1, .sign ze]
    let p : SysF := { sy0 with d := .s 8, a := .s 9 }
    let s : State :=
      { (joined.updTask 1 fun t => { t with vq := [⟨0x8040, 0, none, none, []⟩], resident := BitVec.allOnes 64 }).setTask 2
          ({ Task.blank with tile := 8, pc := 0x8040 }.setS 9 (handleOf 0 1)) with cur := 2 }
    let settled := fun (t : State) => t.settleCompacts.settleCompacts
    let stopped := settled (after (.preemptCompact p) s)
    let idle := after (.preemptCompact p) stopped
    let resumed := settled (after (.resumeCompact p) idle)
    (gives (.preemptCompact p) s (fun t => t.cx.fate == .held && (compact t).stopPending)
      && (compact stopped).st == .stopped && hasTask stopped 1 (fun x => x.run == .stopped)
      && done (.preemptCompact p) stopped (fun t => s8 t == 0)
      && done (.preemptCompact p) idle (fun t => s8 t == 1)
      && gives (.resumeCompact p) idle (fun t => t.cx.fate == .held)
      && (compact resumed).st == .compute
      && done (.resumeCompact p) resumed (fun t => s8 t == 0 && hasTask t 1 (·.live))
      && done (.resumeCompact p) s (fun t => s8 t == 1)) = true := by decide +kernel

/-- A U-prefixed ADD: outside a gang; by the first member; by one that finds the result posted; by one at another PC. -/
theorem test_unison :
    let i : Instr := .add { alu with hd := { hd0 with u := true } }
    let s : State := { inGang st with gangs := [(1, { gang1 with tasks := [1, 2] })] }
    let t := ({ (after i s).setTask 2 { tk with gang := some 1, tile := 1 } with cur := 2 } : State)
    (traps i st (fun x => x.cause == 1 && x.detail == 4)
      && done i s (fun t => s8 t == 0xFFFFFFFFFFFFFFFF)
      && done i (t.upd fun x => x.setS 5 3) (fun u => s8 u == 0xFFFFFFFFFFFFFFFF)
      && gives i (t.updClus 0 fun k => { k with ugroups := k.ugroups.map fun u => { u with done := false } })
          (fun u => u.cx.fate == .held && waitKind u.me.wait == 4)
      && traps i { t with cx := { t.cx with pc := 0x800C } } (fun x => x.cause == 1 && x.detail == 7)) = true := by
  decide +kernel


/-! Events of the engines (07, 10). -/

theorem test_cone_traffic_events :
    let dec := fun (n : Nat) (c : Cone) => ({ cst c with pbdecs := [{ clus := 0, cid := 5, bytes := n, dom := 0, clk := [] }] } : State)
    let arr := fun (sg : Bool) (c : Cone) =>
      ({ cst c with rarrs := [{ mid := 9, task := 1, dom := 0, clus := 0, cid := 5, signal := sg, clk := [], at' := some 1 }] } : State)
    (gives (.pendingByteDecrement 0) (dec 4 { cone0 with a := 2, pb := 4 }) (fun t => (at5 t).phase && (at5 t).a == 0
          && (at5 t).pb == 0 && t.pbdecs == [])
      && gives (.pendingByteDecrement 0) (dec 3 { cone0 with a := 2, pb := 4 }) (fun t => !(at5 t).phase && (at5 t).pb == 1)
      && gives (.remoteArrival 0) (arr false { cone0 with a := 1 }) (fun t => (at5 t).phase && t.rarrs == [])
      && gives (.remoteSignal 0) (arr true { cone0 with mode := 1, e := 0, waiters := [1] }) (fun t => (at5 t).phase
          && (at5 t).waiters == [] && t.rarrs == [])) = true := by decide +kernel

/-- A message to m5 of the sender itself is delivered, answered and acknowledged; one to no task is answered 2. -/
theorem test_message_events :
    let send := fun (h : Word) => (after (.msend { en0 with d := .s 8, a := .s 9, b := .s 4, x := 5 })
      (mst.upd fun t => t.setS 9 h))
    let got := fun (h : Word) => ({ send h with sends := (send h).sends.map fun m => { m with got := [0] } } : State)
    let id := ((got 0).sends.map (·.id)).headD 0
    let answer := fun (s : State) => (s.sends.map (·.status)).headD none
    let trap := ({ (got 0) with sends := (got 0).sends.map fun m => { m with status := some 1 } } : State)
    (gives (.messageDelivery id) (got (handleOf 0 1)) (fun t => t.me.m[5] == 4 && t.me.isFull 5 && answer t == some 0)
      && gives (.messageDelivery id) ((got (handleOf 0 1)).upd fun t => t.setM 5 1 true []) (fun t => t.me.m[5] == 1
          && t.me.mbox.map (·.value) == [4] && answer t == some 0)
      && gives (.messageDelivery id) (got (handleOf 0 77)) (fun t => answer t == some 2)
      && gives (.messageAck id) (after (.messageDelivery id) (got (handleOf 0 77))) (fun t => s8 t == 2 && t.sends == []
          && t.me.sends == [])
      && gives (.messageAck id) (trap.upd fun t => { t with sends := t.sends.map fun (e : Nat × Reg × Bool) => (e.1, e.2.1, true) }) (fun t =>
          s8 t == 4 - 4 && t.me.pend.map (fun p => (p.code, p.detail)) == [(0x23, 1)])) = true := by decide +kernel

theorem test_io_mcas_events :
    let r : IoRec := { port := 0, addr := 0x40, n := 4, t0 := 0, result := none }
    let s := mst.upd fun t => { t with io := some r }
    let m : McasRec := { entries := [], lines := [32, 33], held := 0, dst := .s 8, next := 0x800C, uni := false, order := 0, inst := .dev }
    let q := ({ mst with lockWaits := [(32, .mcas 1)] } : State).upd fun t => { t with mcas := some m }
    (gives (.ioldCompletion 1 0 7) s (fun t => t.me.io == some { r with result := some (0, 7) })
      && gives (.ioldTimeout 1) { s with cycle := 65536 } (fun t => t.me.io == some { r with result := some (3, 0) })
      && gives (.ioldTimeout 1) { s with cycle := 65535 } (fun t => t.me.io == some r)
      && gives (.mcasLockGrant 1) q (fun t => (t.me.mcas.map (·.held)) == some 1 && (t.dirEnt 32).st == .l 1
          && t.lockWaits == [(33, .mcas 1)])) = true := by decide +kernel

/-- A U group's result reaches the member that waits for it. -/
theorem test_u_group_event :
    let g : UGroup := { gang := 1, n := 0, exec := 2, pc := 0x8000, done := true, cmd := none, regs := [(8, 9)], clk := [] }
    let s := ({ (inGang mst).setTask 2 { tk with gang := some 1 } with gangs := [(1, { gang1 with tasks := [1, 2] })] } : State)
    gives (.uGroupComplete 0 1 0) ((s.updClus 0 fun k => { k with ugroups := [g] }).upd fun t => { t with wait := 4 })
      (fun t => s8 t == 9 && t.me.wake == some 0) = true := by decide +kernel

/-! Events of the homes and of the fabric (20). -/

/-- Line 32 in a state. -/
def lst (d : DirSt) : State := mst.updDir 32 fun e => { e with st := d }

def line32 (i : Instr) (a b : DirSt) : Bool := gives i (lst a) fun t => (t.dirEnt 32).st == b && t.mem == mst.mem

theorem test_directory :
    (line32 (.dirRead 3 32) .i (.e 3) && line32 (.dirRead 3 32) (.e 3) (.e 3) && line32 (.dirRead 3 32) (.m 4) (.s [4, 3])
      && line32 (.dirRead 3 32) (.s [4, 5, 6]) (.s [4, 5, 6, 3]) && line32 (.dirRead 511 32) (.s [0, 1, 2, 64]) (.sd 0x83)
      && line32 (.dirReadForOwnership 3 32) (.s [3, 4, 5]) (.m 3) && line32 (.dirUpgrade 3 32) (.sd 0x81) (.m 3)
      && line32 (.dirFarOperation 3 32) (.m 3) .i && line32 (.dirWriteback 3 32) (.m 3) (.e 3)
      && line32 (.dirInvlEvict 3 32) (.e 3) .i && line32 (.dirInvlEvict 3 32) (.s [4, 3]) (.s [4])
      && line32 (.cleanCopyDrop 3 32) (.s [4, 3]) (.s [4, 3])
      && line32 (.dirRead 3 32) (.p 0 4) (.p 0 4)
      && gives (.forwardedPinAccess 3 0x1000 8 (some 5)) (lst (.p 0 4)) (fun t => t.mem.num 0x1000 9 == 0x88 * 2 ^ 64 + 5)
      && gives (.forwardedPinAccess 3 0x1000 8 none) (lst (.p 0 4)) (fun t => t.mem == mst.mem)) = true := by decide +kernel

theorem test_update_mode :
    let s := fun (n : Nat) (u : Bool) => mst.updDir 32 fun e =>
      { e with st := .s [3, 4], upd := true, unread := u, cnt := n, lastOwner := 3 * 512 + 4 }
    (gives (.updatePush 3 0x1000 8 5) (s 2 false) (fun t => t.mem.num 0x1000 8 == 5 && (t.dirEnt 32).unread && (t.dirEnt 32).cnt == 2)
      && gives (.updatePush 3 0x1000 8 5) (s 2 true) (fun t => (t.dirEnt 32).cnt == 1 && (t.dirEnt 32).upd)
      && gives (.updatePush 3 0x1000 8 5) (s 1 true) (fun t => (t.dirEnt 32).st == .s [3] && !(t.dirEnt 32).upd)) = true := by
  decide +kernel

theorem test_fabric_events :
    let f : Flit :=
      { dest := 8 * 9, src := 0, age := 0, mid := 9, seq := 0, isLast := true, kind := 0, pay := 0, ref := 3, q := 9, router := 8,
        here := false, back := false, born := 0, came := 0, excused := false }
    let s := fun (x : Flit) => ({ mst with flits := [x], fk := 40 } : State)
    let w := fun (level defl : Nat) => mst.updClus 3 fun k => { k with throttle := level, winDefl := defl, winFlits := 16, win := 1 }
    (gives (.routerCycle 8) (s { f with came := 40 }) (fun t => t.flits == [{ f with came := 40 }] && t.cycled == [8] && t.fk == 40)
      && gives (.routerCycle 9) (s { f with router := 9 }) (fun t => t.flits.map (fun x => (x.here, x.age)) == [(true, 1)])
      && neighbours 8 == [4, 12, 18] && routerDist 8 9 == 2 && routerDist 18 9 == 1
      && gives (.flitArrival 0) (s { f with router := 9, here := true }) (fun t => t.flits == [])
      && gives (.throttleWindow 3) (w 0 1) (fun t => (t.clus 3).throttle == 1 && (t.clus 3).winFlits == 0)
      && gives (.throttleWindow 3) (w 1 0) (fun t => (t.clus 3).throttle == 0)
      && gives (.throttleWindow 3) (w 0 0) (fun t => (t.clus 3).throttle == 0)
      && gives (.slfoldWrite 0x4001) mst (fun t => t.foldTo == 0x4001 && t.foldstat == 0x81)
      && gives (.foldComplete 7) (after (.slfoldWrite 0x4001) mst) (fun t => t.slfold == 0x4000 && t.foldstat == 1)
      && gives (.slfoldWrite 0) (after (.slfoldWrite 1) mst) (fun t => t.foldTo == 1)
      && gives (.homeLossDeclare 0) ((lst (.m 67)).updDir 34 fun e => { e with st := .e 67 }) (fun t => t.lost == [0]
          && (t.dirEnt 32).st == .o 67 && (t.dirEnt 32).orphan.length == 128 && (t.dirEnt 34).st == .i)
      && gives (.homeLossDeclare 0) (lst (.m 3)) (fun t => (t.dirEnt 32).st == .i)
      && gives (.ethernetLinkChange 7 true) mst (fun t => t.uetcfg[7] == 2 && t.uetcfg[6] == 0)) = true := by decide +kernel

theorem test_transport_events :
    let p : Packet := { num := 4, dev := 2, clk := [], body := .arrival 0 0 5 }
    let out : UePkt := { pkt := { num := 6, dev := 2, clk := [], body := .message 0 0 5 [1] false }, port := 0, start := 0, sentAt := 0, tries := 1, task := 1, ref := 3 }
    let s : State := { mst with
      uetOut := [out], uetrto := 10, cycle := 10
      sends := [{ id := 3, task := 1, dom := 0, dev := 2, handle := 0, reg := 5, words := [1], blk := false, clk := []
                  src := 0, mid := 3, got := [], status := none }] }
    (gives (.uetPacketReceive p) (cst { cone0 with a := 1 }) (fun t => (at5 t).phase && t.uetSeen.map (fun a => (a.dev, a.num, a.answer.status)) == [(2, 4, 0)])
      && gives (.uetPacketReceive p) { cst { cone0 with a := 1 } with uetSeen := [{ dev := 2, num := 4, answer := { status := 0 } }] } (fun t => !(at5 t).phase)
      && gives (.uetAckReceive 6 { status := 1 }) s (fun t => t.uetOut == [] && t.sends.map (·.status) == [some 1])
      && gives (.uetRetransmit 6) s (fun t => t.uetOut == [{ out with tries := 2, sentAt := 10 }])
      && gives (.uetRetransmit 6) { s with cycle := 9 } (fun t => t.uetOut == [out])) = true := by decide +kernel


/-! The host, boot and power (22, 23). -/

theorem test_power_telemetry :
    (gives (.cappingWindow 3601) mst (·.capping) && gives (.cappingWindow 3600) mst (fun t => !t.capping)
      && gives (.cappingWindow 3492) { mst with capping := true } (·.capping)
      && gives (.cappingWindow 3491) { mst with capping := true } (fun t => !t.capping)
      && gives (.telemetryRefresh [(1, 500)]) (mst.updDie 7 fun d => { d with corrSram := 2, corrHbm := 3, poisoned := 4 })
          (fun t => t.sensors.get? 71 == some 2 && t.sensors.get? 79 == some 3 && t.sensors.get? 87 == some 4
            && t.sensors.get? 2 == some 0 && t.sensors.get? 1 == some 500)
      && gives (.pldmGetSensorReading 87) { mst with sensors := [(87, 4)] } (fun t => t.outputs == [.pldm 4])
      && gives (.pldmKilnlogRead 7) mst (fun t => match t.outputs with
        | [.pldmFile l] => l.length == 4097
        | _ => false)
      && gives (.pklimitWrite 1000) { mst with part := .ev4096pk } (fun t => t.pklimit == 1000 && t.outputs == [])
      && gives (.pklimitWrite 999) { mst with part := .ev4096pk } (fun t => t.outputs == [.pldmError])
      && gives (.pklimitWrite 1000) mst (fun t => t.outputs == [.pldmError])) = true := by decide +kernel

theorem test_host_ports :
    let m := fun (f : Mbox → Mbox) => mst.updMbox 63 f
    let at63 := fun (t : State) => t.mbox 63
    (gives (.bar2Read false 0x1003 4) mst (fun t => t.outputs == [.barData false [0x44, 0x55, 0x66, 0x77] false])
      && gives (.bar2Write false 0x1003 [1, 2]) mst (fun t => t.mem.num 0x1000 8 == 0x8877660201332211)
      && gives (.hseqWrite false 63 1) mst (fun t => (at63 t).hseq == 1 && !(at63 t).err)
      && gives (.hseqWrite false 63 2) mst (fun t => (at63 t).hseq == 0 && (at63 t).err)
      && gives (.hseqWrite false 63 1) (m fun x => { x with hseq := 0xFFFFFFFF, hcons := 0xFFFFFFF0 }) (fun t => (at63 t).hseq == 1)
      && gives (.hseqWrite false 63 17) (m fun x => { x with hseq := 16 }) (fun t => (at63 t).hseq == 16 && (at63 t).err)
      && gives (.hseqWrite true 63 1) mst (fun t => t.mboxes == mst.mboxes)
      && gives (.dconsWrite false 63 7) mst (fun t => (at63 t).dcons == 7)
      && gives (.hconsWrite 63 7) mst (fun t => (at63 t).hcons == 7)
      && gives (.dseqWrite 63 1) mst (fun t => (at63 t).dseq == 1 && (t.msixOf false 63).pending && t.outputs == [])
      && gives (.dseqWrite 63 1) (after (.msixUnmask false 63) mst) (fun t => t.outputs == [.msix false 63 0 0])
      && gives (.msixUnmask true 63) (after (.dseqWrite 63 1) (after (.mbportWrite 63 true) mst)) (fun t =>
          t.outputs == [.msix true 63 0 0] && !(t.msixOf true 63).pending)
      && gives (.bar0MailboxWrite false 63 2046 [1, 2]) mst (fun t => (at63 t).data.num 2046 2 == 0x201)
      && gives (.bar0MailboxWrite true 63 0 [1]) mst (fun t => t.mboxes == mst.mboxes)) = true := by decide +kernel

theorem test_boot_reset :
    let s := ({ (mst.updMbox 1 fun x => { x with hseq := 5, port := true }) with pklimit := 1500, fabthr := 1 } : State)
    (gives .bootgo mst (fun t => t.bootstat == 1) && gives .bootgo { mst with bootstat := 16 } (fun t => t.bootstat == 1)
      && gives .bootgo { mst with bootstat := 15 } (fun t => t.bootstat == 15)
      && gives .bootVerifyDone { mst with bootstat := 1 } (fun t => t.bootstat == 16)
      && gives .coldReset s (fun t => t.mem == [] && t.tasks == [] && t.fabthr == 0x8060403020 * 65536 + 0x1008 && t.mboxes == [])
      && gives .warmReset s (fun t => t.mem == [] && t.tasks == [] && t.pklimit == 1500 && (t.mbox 1).hseq == 5 && (t.mbox 1).port)
      && gives (.pcieHotReset false) (after (.msixUnmask false 3) s) (fun t => (t.mbox 1).hseq == 5 && t.msixOf false 3 == Msix.reset)
      && gives (.measurementAppend 1 (List.replicate 64 0)) { mst with measured := 256, bootstat := 2 } (fun t => t.measured == 256)
      && gives (.attestationReport (List.replicate 64 3)) mst (fun t => t.outputs == mst.outputs)
      && gives (.attestationReport (List.replicate 64 3)) { mst with bootstat := 2 } (fun t => match t.outputs with
        | [.report l] => l.take 128 == List.replicate 64 3 ++ List.replicate 64 0
        | _ => false)) = true := by decide +kernel

/-- An image of one line at 0x10000 with a good header. -/
def bst : State :=
  { State.reset with
    bootstat := 1, bootaddr := 0x10000
    mem := Mem.write [] 0x10000 (natBytes 0x45565449 8 ++ natBytes 64 8 ++ natBytes 12 8 ++ natBytes 3 8) }

/-- Its verification succeeds where the vendor's key verifies its signature, and then the firing program starts. -/
theorem test_boot_success (h : edVerify Config.vendorKey bst.imageDigest (bst.mem.read (bst.bootaddr.toNat + 32) 114) = true) :
    bst.bootCode = 2 := by
  unfold State.bootCode
  rw [h]
  decide +kernel

/-- Without the firing program, no event is measured and no report is made (22 R426, R427). -/
theorem test_firing_only :
    (gives (.measurementAppend 1 (List.replicate 64 0)) { bst with bootstat := 16 } (fun t => t.measured == 0)
      && gives (.attestationReport (List.replicate 64 3)) bst (fun t => t.outputs == [])) = true := by decide +kernel

/-! Register writes (01, 02, 09, 20, 21). -/

theorem test_register_events :
    let w := (wst 0 0).upd fun t => { t with saveext := 3, wfsag := 0, wfbat := 0, wfrib := 0, wfkn := 0 }
    let c := (after (.mzeroRib { wf with a := .s 0, b := .s 0, x := 2, imm := 3 }) (wst 0 0x500000000)).upd fun t => { t with fpend := [0] }
    (gives (.devcfgWrite 0x7FF) mst (fun t => t.devset && t.devnum == 0x3FF)
      && gives (.dqringWrite 7 15 (BitVec.allOnes 64)) mst (fun t => (t.die 7).dqring[15] == 0x800FFFFFFFFFF00F)
      && gives (.scopeWrite 15 0) mst (fun t => (t.dom 0).scope[15] == 0)
      && gives (.fpflagsWrite (BitVec.allOnes 64)) mst (fun t => t.me.fpflags == 0x1FF)
      && gives (.wheelwtWrite (BitVec.allOnes 64)) mst (fun t => (t.wheel 0).wt == 0xFFFFFFFFF)
      && gives (.wheelFootprintWrite 3 7) w (fun t => t.me.wfkn == 7)
      && gives .wqstatDiscard c (fun t => t.me.fpend == [] && (t.wheel 0).queue 0 == [])
      && gives .cfstatAbandon mst (fun t => t.me.cfstat == 0x80000000)
      && gives (.statusWrite (BitVec.allOnes 64)) (mst.upd fun t => { t with status := 1 }) (fun t => t.me.status == 0x15)
      && gives (.registerWrite (.tvbase 63) (BitVec.allOnes 64)) mst (fun t => (t.dom 63).tvbase == 0x7FFFFFFFFFFE00)
      && gives (.registerWrite (.ptroot 63) (BitVec.allOnes 64)) mst (fun t => (t.dom 63).ptroot == 0xFFFFFFFFF0000 && (t.dom 63).ptSet)
      && gives (.registerWrite (.hchain 63 7) 5) mst (fun t => (t.dom 63).hchain[7] == 5)
      && gives (.registerWrite (.bkpt 63 3) (BitVec.allOnes 64)) mst (fun t => (t.dom 63).bkpt[3] == 0x807FFFFFFFFFFFFF)
      && gives (.registerWrite .domsel 0x1FF) mst (fun t => (t.tile 0).domsel[0] == 255)
      && gives (.registerWrite .ipc 5) mst (fun t => t.me.ipc == 5) && gives (.registerWrite .vpc 5) mst (fun t => t.me.vpc == 5)
      && gives (.registerWrite .btctl (BitVec.allOnes 64)) mst (fun t => Word.bits (t.tile 0).btctl 4 1 == 12 && bit1 (t.tile 0).btctl 51)
      && gives (.registerWrite .fabthr (BitVec.allOnes 64)) mst (fun t => t.fabthr == 0xFFFFFFFFFFFFFF)
      && gives (.registerWrite .cohctl (BitVec.allOnes 64)) mst (fun t => t.cohctl == 1)
      && gives (.registerWrite (.uetcfg 7) (BitVec.allOnes 64)) mst (fun t => t.uetcfg[7] == 1)
      && gives (.registerWrite .uetrto (BitVec.allOnes 64)) mst (fun t => t.uetrto == 0xFFFFFFFF)
      && gives (.registerWrite .uetretry 16) mst (fun t => t.uetretry == 1)
      && gives (.registerWrite (.dqage 7 15) (BitVec.allOnes 64)) mst (fun t => (t.die 7).dqage[15] == 0xFFFF)
      && gives (.registerWrite (.dampctl 7) (BitVec.allOnes 64)) mst (fun t => (t.die 7).dampctl == 0x400FFF)
      && gives (.registerWrite (.xdelay 7) (BitVec.allOnes 64)) mst (fun t => (t.die 7).xdelay == 0xFFFFFFFF)
      && gives (.registerWrite .bootaddr (BitVec.allOnes 64)) mst (fun t => t.bootaddr == 0xFFFFFFFFFFF00)
      && gives (.registerWrite (.mbtask 63) 9) mst (fun t => (t.mbox 63).task == 9)) = true := by decide +kernel

/-- A posted write that waits holds back the later accesses of its port (22 R419); a long write of BAR0 reaches each register
it covers (22 R420); the events of one ck stand in the order of their sources (23 R432). -/
theorem test_port_order :
    let locked := mst.updDir 32 fun e => { e with st := .l 1 }
    let two := after (.bar2Write false 0x2000 [7]) (after (.bar2Write false 0x1000 [5]) locked)
    let srcs := fun (s : State) => [0, 1].map fun i => logSrc ((s.die 0).klog.getD i [])
    (two.barWrites.length == 2 && two.mem == mst.mem && gives (.bar2Read false 0x2000 1) two (fun t => t.outputs == mst.outputs)
      && gives (.dconsWrite false 63 5) two (fun t => t.mboxes == mst.mboxes)
      && (let t := (two.updDir 32 fun e => { e with st := .i }).settleWrites
          t.barWrites == [] && t.mem.num 0x1000 1 == 5 && t.mem.num 0x2000 1 == 7)
      && gives (.bar0MailboxWrite false 63 2048 (natBytes 1 8 ++ natBytes 9 8 ++ natBytes 9 8 ++ natBytes 4 4)) mst
          (fun t => ((t.mbox 63).hseq, (t.mbox 63).hcons, (t.mbox 63).dseq, (t.mbox 63).dcons) == (1, 0, 0, 4))
      && srcs ((mst.klogAdd 0 1 9 0 0 0).klogAdd 0 1 3 0 0 0) == [3, 9]
      && srcs (({ mst.klogAdd 0 1 9 0 0 0 with cycle := 700 } : State).klogAdd 0 1 3 0 0 0) == [9, 3]) = true := by decide +kernel

/-- The table of UETMAP is read from a page that may be read; its first byte here is 5. -/
theorem test_uetmap :
    gives (.uetmapWrite 0x10000) { mst with mem := [(0x10000, 5)] } (fun t => t.uetmap == 0x10000 && t.uetTable == [(0, 5)]) = true := by
  decide +kernel

/-! Steps. -/

/-- What a step gives, with a property. -/
def steps (s : State) (p : State → Bool) : Bool :=
  match step s with
  | .next t => p t
  | _ => false

/-- Right after reset a word placed where the first step fetches runs: LI, ST, CALL, and a word of no instruction. -/
theorem test_step_runs :
    (steps (State.reset.withFetchWord 96 0x141005008000000000000001) (fun t => t.me.sreg 5 == 0x8000000000000001 && t.me.pc == 0x1000C)
      && steps (State.reset.withFetchWord 96 0) (fun t => t.me.pc == 0x1000C && t.cycle == 1 && t.mem.wf)
      && steps (State.reset.withFetchWord 96 0x18003F010000000000000008) (fun t => t.me.pc == 0x10040 && t.me.sreg 63 == 0x1000C)
      && steps (State.reset.withFetchWord 96 (0x030 * 2 ^ 84)) (fun t => t.tasks == [] || t.cx.fate == .done)) = true := by
  decide +kernel

/-- The premises of the statement on issue: the line is fetched, its bundle is one NOP, and nothing of the task waits. -/
theorem test_witness_issue :
    let s := State.reset.withFetchWord 96 0
    (match s.fetchLine fetchFrame 0x10000 with
      | .line l s1 => (match s1.checkBundle fetchFrame l with
        | .ok [y] next => y.pc == 0x10000 && next == 0x1000C && y.ins == .nop sc0 && !s1.breakAt fetchFrame [y]
            && (s.task fetchFrame).bundleReady [y] []
        | _ => false)
      | _ => false) = true := by decide +kernel

/-- A V-stream's turn runs the instruction at its head; an event's turn is the event; a pass only counts. -/
theorem test_step_turns :
    let q := (mst.upd fun t => { t with vq := [{ pc := 0x8000, scal := 3, ins := some (.viota { vv with fmt := 9, b := .s 3 }), clk := [] }], resident := BitVec.allOnes 64 })
    let with' := fun (s : State) (a : Act) => ({ s with agenda := [{ dt := 2, act := a }] } : State)
    (steps (with' q (.vector 1)) (fun t => t.me.vq == [] && t.cycle == 2)
      && steps (with' mst (.event (.frameLineFetch 1 5))) (fun t => t.me.resident == 32)
      && steps (with' mst (.ecc (.word 0 0x1004))) (fun t => t.poison == [512] && (t.die 0).poisoned == 1
          && ((t.die 0).klog.getD 0 []).drop 24 == natBytes 0x1000 8)
      && steps (with' mst .pass) (fun t => t.cycle == 2 && t.tasks == mst.tasks)
      && mst.mem.wf) = true := by decide +kernel

theorem test_reset :
    (State.reset.memOk && State.reset.partOk && State.reset.fabthr == 0x80604030201008 && State.reset.uetrto == 0x4E20 && State.reset.uetretry == 8
      && (State.reset.die 7).xdelay == 0x30D40 && (State.reset.wheel 511).wt == 0x111111111 && (State.reset.task? 0).isNone) = true := by
  decide +kernel

end Sys2Proof.Tests
end

section
/-! The writes of registers made as events (00 R7): the bits that a write keeps, the domain that a footprint gives its knot
registers to (09 R224), and what a discard takes out of the Wheel's queues (09 R223). -/

namespace Sys2Proof.Machine

open Sys2Proof

/-! Bits of words. -/

theorem setBit_getLsbD (x : Word) {j i : Nat} (b : Bool) (hi : i < 64) :
    (setBit x j b).getLsbD i = if i = j then b else x.getLsbD i := by
  have one : (1#64 <<< j).getLsbD i = decide (i = j) := by
    simp only [BitVec.getLsbD_shiftLeft, BitVec.getLsbD_one, hi]
    by_cases h : i = j
    · simp [h]
    · simp [h]; omega
  cases b with
  | true =>
    simp only [setBit, if_true, BitVec.getLsbD_or, one]
    by_cases h : i = j <;> simp [h]
  | false =>
    simp only [setBit, Bool.false_eq_true, if_false, BitVec.getLsbD_and, BitVec.getLsbD_not, one, hi]
    by_cases h : i = j <;> simp [h]

theorem Word.testBit_bits (x : Word) (hi lo i : Nat) :
    (Word.bits x hi lo).testBit i = (decide (i < hi + 1 - lo) && x.getLsbD (lo + i)) := by
  simp [Word.bits, Nat.bits, Nat.testBit_mod_two_pow, Nat.testBit_div_two_pow, BitVec.getLsbD, Nat.add_comm]

theorem setBits_getLsbD (x : Word) {hi lo i : Nat} (v : Nat) (hlo : lo ≤ hi) (hi' : i < 64) :
    (setBits x hi lo v).getLsbD i = if lo ≤ i ∧ i ≤ hi then v.testBit (i - lo) else x.getLsbD i := by
  have mask : ((2 ^ (hi + 1 - lo) - 1) * 2 ^ lo).testBit i = decide (lo ≤ i ∧ i ≤ hi) := by
    rw [Nat.testBit_mul_two_pow, Nat.testBit_two_pow_sub_one]
    by_cases h1 : lo ≤ i
    · simp [h1]; omega
    · simp [h1]
  simp only [setBits, BitVec.getLsbD_or, BitVec.getLsbD_and, BitVec.getLsbD_not, BitVec.getLsbD_ofNat, mask, hi',
    Nat.testBit_mul_two_pow]
  by_cases hr : lo ≤ i ∧ i ≤ hi <;> simp [hr]

/-- A field that is put in is read back. -/
theorem Word.bits_setBits (x : Word) {hi lo : Nat} (v : Nat) (h : hi < 64) (hlo : lo ≤ hi) :
    Word.bits (setBits x hi lo v) hi lo = v % 2 ^ (hi + 1 - lo) := by
  apply Nat.eq_of_testBit_eq
  intro i
  rw [Word.testBit_bits, Nat.testBit_mod_two_pow]
  by_cases hr : i < hi + 1 - lo
  · rw [setBits_getLsbD x v hlo (by omega)]
    simp [hr, show lo + i ≤ hi by omega]
  · simp [hr]

/-- An entry put into a register file is read back. -/
theorem vecAt_setIfInBounds_self {n i : Nat} (l : Vector Word n) (v : Word) (h : i < n) :
    vecAt (l.setIfInBounds i v) i = v := by
  simp [vecAt, h]

/-! Footprints (09 R224): the domain that takes a footprint holds its knot registers. -/

theorem Wheel.setKnot_knDom (w : Wheel) (i : Nat) (k : BitVec 128) : (w.setKnot i k).knDom = w.knDom := by
  unfold Wheel.setKnot
  split <;> rfl

theorem Wheel.showKnot_knDom (w : Wheel) (i : Nat) : (w.showKnot i).knDom = w.knDom := by
  unfold Wheel.showKnot
  split <;> rfl

/-- Whatever else `f` does to a Wheel, a domain given the knot registers of a list one by one holds them. -/
theorem Wheel.knDom_foldl (f : Wheel → Nat → Wheel) (d e : Nat) (hf : ∀ w i, (f w i).knDom = w.knDom.set i d) (l : List Nat)
    (w : Wheel) {i : Nat} (h : i ∈ l ∨ w.knDom.getD i e = d) : (l.foldl f w).knDom.getD i e = d := by
  induction l generalizing w with
  | nil => simpa using h
  | cons j r ih =>
    apply ih
    rw [hf, Map.getD_set]
    by_cases hj : j = i
    · simp [hj]
    · simpa [hj, Ne.symm hj] using h

theorem Wheel.take_knDom (w : Wheel) (d e : Nat) (sag bat rib kn : Word) {i : Nat} (hi : i < 24) (hk : bit1 kn i = true) :
    (w.take d sag bat rib kn).knDom.getD i e = d := by
  apply Wheel.knDom_foldl
  · intro w' j
    dsimp only
    split
    · rw [Wheel.showKnot_knDom, Wheel.setKnot_knDom]
    · rfl
  · exact .inl (by simp [fpBits, hi, hk])

/-! Waits that end leave the Wheel's queues and faults alone (10 R269). -/

@[simp] theorem State.putFrame_cluss (s : State) (t : Nat) (vp : Word) : (s.putFrame t vp).cluss = s.cluss := by
  unfold State.putFrame
  refine List.foldlRecOn (motive := fun u : State => u.cluss = s.cluss) _ _ rfl fun u hu p _ => ?_
  dsimp only
  split
  · exact hu
  · exact hu

@[simp] theorem State.putFrame_tasks (s : State) (t : Nat) (vp : Word) : (s.putFrame t vp).tasks = s.tasks := by
  unfold State.putFrame
  refine List.foldlRecOn (motive := fun u : State => u.tasks = s.tasks) _ _ rfl fun u hu p _ => ?_
  dsimp only
  split
  · exact hu
  · exact hu

@[simp] theorem State.putFrame_task_opt (s : State) (t a : Nat) (vp : Word) : (s.putFrame t vp).task? a = s.task? a := by
  rw [State.task?, State.putFrame_tasks, State.task?]

@[simp] theorem State.editTask_cluss (s : State) (t : Nat) (f : Task → Task) : (s.editTask t f).cluss = s.cluss := by
  unfold State.editTask
  split
  · rfl
  · split
    · rfl
    · simp

@[simp] theorem State.wake_cluss (s : State) (t kind r : Nat) : (s.wake t kind r).cluss = s.cluss := by
  unfold State.wake
  split
  · rfl
  · split
    · simp
    · rfl

/-- Task `t` is still there, and the faults of its Wheel commands are the same (09 R223). -/
def State.keepsFaults (s u : State) (t : Nat) : Prop :=
  ∀ x, s.task? t = some x → ∃ y, u.task? t = some y ∧ y.fpend = x.fpend ∧ y.wstop = x.wstop

theorem State.keepsFaults_of_tasks {s u : State} {t : Nat} (h : u.tasks = s.tasks) : s.keepsFaults u t :=
  fun x hx => ⟨x, by rw [State.task?, h]; exact hx, rfl, rfl⟩

@[simp] theorem Task.ofImage_fpend (x : Task) (m : Mem) (n : Nat) : (x.ofImage m n).fpend = x.fpend := by
  simp only [Task.ofImage]

@[simp] theorem Task.ofImage_wstop (x : Task) (m : Mem) (n : Nat) : (x.ofImage m n).wstop = x.wstop := by
  simp only [Task.ofImage]

/-- An edit of any task that changes no fault of its commands changes none; a frame's image holds none. -/
theorem State.editTask_keepsFaults (s : State) (a t : Nat) (f : Task → Task)
    (hf : ∀ x, (f x).fpend = x.fpend ∧ (f x).wstop = x.wstop) : s.keepsFaults (s.editTask a f) t := by
  intro x hx
  unfold State.editTask
  split
  · exact ⟨x, hx, rfl, rfl⟩
  · rename_i z hz
    by_cases ha : a = t
    · subst ha
      obtain rfl : z = x := by simpa [hz] using hx
      split
      · exact ⟨_, by simp, hf z⟩
      · exact ⟨f (z.ofImage (s.frameMem a) a), by rw [State.putFrame_task_opt, State.setTask_task_opt, if_pos rfl],
          by rw [(hf _).1, Task.ofImage_fpend], by rw [(hf _).2, Task.ofImage_wstop]⟩
    · split
      · exact ⟨x, by simpa [ha] using hx, rfl, rfl⟩
      · exact ⟨x, by rw [State.putFrame_task_opt, State.setTask_task_opt, if_neg ha, hx], rfl, rfl⟩

theorem State.wake_keepsFaults (s : State) (a kind r t : Nat) : s.keepsFaults (s.wake a kind r) t := by
  unfold State.wake
  split
  · exact State.keepsFaults_of_tasks rfl
  · split
    · exact State.editTask_keepsFaults _ _ _ _ fun _ => ⟨rfl, rfl⟩
    · exact State.keepsFaults_of_tasks rfl

/-! Discarding commands (09 R223, R225). -/

theorem Map.mem_of_get? {α : Type} {m : Map α} {x : Nat} {v : α} (h : m.get? x = some v) : (x, v) ∈ m := by
  induction m with
  | nil => simp [Map.get?] at h
  | cons c r ih =>
    obtain ⟨k, w⟩ := c
    simp only [Map.get?] at h
    split at h
    · simp_all
    · exact List.mem_cons_of_mem _ (ih h)

theorem Map.get?_of_mem {α : Type} {m : Map α} {x : Nat} {v : α} (hm : (m.map (·.1)).Nodup) (h : (x, v) ∈ m) :
    m.get? x = some v := by
  induction m with
  | nil => simp at h
  | cons c r ih =>
    obtain ⟨k, w⟩ := c
    simp only [List.map_cons, List.nodup_cons] at hm
    simp only [Map.get?]
    rcases List.mem_cons.mp h with h | h
    · simp_all
    · have : k ≠ x := fun hk => hm.1 (List.mem_map.mpr ⟨_, h, hk.symm⟩)
      rw [if_neg this, ih hm.2 h]

/-- A list of queue `q` holds command `c`. -/
def Wheel.holds (w : Wheel) (q : Nat) (c : WCmd) : Prop := ∃ l, (q, l) ∈ w.queues ∧ c ∈ l

theorem Wheel.holds_of_mem_queue {w : Wheel} {q : Nat} {c : WCmd} (h : c ∈ w.queue q) : w.holds q c := by
  unfold Wheel.queue Map.getD at h
  cases hq : Map.get? w.queues q with
  | none => simp [hq] at h
  | some l => exact ⟨l, Map.mem_of_get? hq, by simpa [hq] using h⟩

/-- Where each queue has one list, what the lists hold is what the queues hold. -/
theorem Wheel.mem_queue_iff {w : Wheel} (hw : (w.queues.map (·.1)).Nodup) {q : Nat} {c : WCmd} :
    c ∈ w.queue q ↔ w.holds q c := by
  refine ⟨Wheel.holds_of_mem_queue, ?_⟩
  rintro ⟨l, hl, hc⟩
  simpa [Wheel.queue, Map.getD, Map.get?_of_mem hw hl] using hc

/-- From `s` to `u` the Wheel of cluster `k` has at most lost commands from its queues, and the faults of task `t` are kept. -/
structure Discards (k t : Nat) (s u : State) : Prop where
  keys : ((u.wheel k).queues.map (·.1)).Sublist ((s.wheel k).queues.map (·.1))
  holds : ∀ q c, (u.wheel k).holds q c → (s.wheel k).holds q c
  faults : s.keepsFaults u t

theorem Discards.refl {k t : Nat} (s : State) : Discards k t s s :=
  ⟨.refl _, fun _ _ h => h, State.keepsFaults_of_tasks rfl⟩

theorem Discards.trans {k t : Nat} {s u v : State} (h1 : Discards k t s u) (h2 : Discards k t u v) : Discards k t s v where
  keys := h2.keys.trans h1.keys
  holds q c h := h1.holds q c (h2.holds q c h)
  faults x hx := by
    obtain ⟨y, hy, hf, hw⟩ := h1.faults x hx
    obtain ⟨z, hz, hf', hw'⟩ := h2.faults y hy
    exact ⟨z, hz, hf'.trans hf, hw'.trans hw⟩

theorem Discards.of_queues {k t : Nat} {s u : State} (hq : (u.wheel k).queues = (s.wheel k).queues) (hf : s.keepsFaults u t) :
    Discards k t s u where
  keys := by simpa only [hq] using List.Sublist.refl ((s.wheel k).queues.map (·.1))
  holds q c h := by simpa only [Wheel.holds, hq] using h
  faults := hf

/-- The command of number `id` is taken out of the queues of one cluster: one step of `removeCmd`. -/
def State.dropCmdAt (s : State) (id x : Nat) : State :=
  let w := (s.wheel x).freeRun x id
  (s.setWheel x { w with queues := (w.queues.mapVal fun l => l.filter fun d => d.id != id).filter fun p => !p.2.isEmpty
    }).dropLeave x true id

theorem State.removeCmd_eq (s : State) (c : WCmd) :
    s.removeCmd c = c.cluss.foldl (fun st x => st.dropCmdAt c.id x) (s.unparkRead (.wheel c.clus c.id)) := rfl

theorem State.dropCmdAt_queues (s : State) (id x k : Nat) : ((s.dropCmdAt id x).wheel k).queues =
    if x = k then ((s.wheel k).queues.mapVal fun l => l.filter fun d => d.id != id).filter fun p => !p.2.isEmpty
    else (s.wheel k).queues := by
  by_cases h : x = k
  · subst h
    simp [State.dropCmdAt, State.dropLeave, State.updClus_def, State.setWheel_def, State.wheel, Wheel.freeRun]
  · simp [State.dropCmdAt, State.dropLeave, State.updClus_def, State.setWheel_def, h]

theorem State.dropCmdAt_holds {s : State} {id x k q : Nat} {d : WCmd} (h : ((s.dropCmdAt id x).wheel k).holds q d) :
    (s.wheel k).holds q d ∧ (x = k → d.id ≠ id) := by
  obtain ⟨l, hl, hd⟩ := h
  rw [State.dropCmdAt_queues] at hl
  by_cases hx : x = k
  · simp only [hx, if_true, Map.mapVal, List.mem_filter, List.mem_map, Prod.mk.injEq] at hl
    obtain ⟨⟨p, hp, rfl, rfl⟩, -⟩ := hl
    obtain ⟨hd, hid⟩ := List.mem_filter.mp hd
    exact ⟨⟨p.2, hp, hd⟩, fun _ => by simpa using hid⟩
  · rw [if_neg hx] at hl
    exact ⟨⟨l, hl, hd⟩, fun h => absurd h hx⟩

theorem State.dropCmdAt_discards (s : State) (id x k t : Nat) : Discards k t s (s.dropCmdAt id x) where
  keys := by
    rw [State.dropCmdAt_queues]
    split
    · have keys : ∀ m : Map (List WCmd), (m.mapVal fun l => l.filter fun d => d.id != id).map (·.1) = m.map (·.1) := by
        simp [Map.mapVal]
      exact keys (s.wheel k).queues ▸ (List.filter_sublist).map _
    · exact .refl _
  holds _ _ h := (State.dropCmdAt_holds h).1
  faults := State.keepsFaults_of_tasks rfl

/-- A command taken out of the clusters of a list is in no queue of any of them. -/
theorem State.dropCmdAt_foldl (l : List Nat) (s : State) (c : WCmd) (k t : Nat) :
    Discards k t s (l.foldl (fun st x => st.dropCmdAt c.id x) s)
      ∧ (k ∈ l → ∀ q, ¬ ((l.foldl (fun st x => st.dropCmdAt c.id x) s).wheel k).holds q c) := by
  induction l generalizing s with
  | nil => exact ⟨.refl _, by simp⟩
  | cons x r ih =>
    obtain ⟨hd, hr⟩ := ih (s.dropCmdAt c.id x)
    refine ⟨(s.dropCmdAt_discards ..).trans hd, fun hk q hc => ?_⟩
    rcases List.mem_cons.mp hk with rfl | hk
    · exact (State.dropCmdAt_holds (hd.holds q c hc)).2 rfl rfl
    · exact hr hk q hc

/-- A command that stands in cluster `k` is in none of its queues once it is removed. -/
theorem State.removeCmd_discards (s : State) (c : WCmd) (k t : Nat) :
    Discards k t s (s.removeCmd c) ∧ (k ∈ c.cluss → ∀ q, ¬ ((s.removeCmd c).wheel k).holds q c) := by
  have unparked : Discards k t s (s.unparkRead (.wheel c.clus c.id)) := .of_queues rfl (State.keepsFaults_of_tasks rfl)
  obtain ⟨hd, hgone⟩ := State.dropCmdAt_foldl c.cluss (s.unparkRead (.wheel c.clus c.id)) c k t
  rw [State.removeCmd_eq]
  exact ⟨unparked.trans hd, hgone⟩

theorem State.finishUniCmd_discards (s : State) (clus id k t : Nat) : Discards k t s (s.finishUniCmd clus id) := by
  unfold State.finishUniCmd
  split
  · exact .refl _
  · refine .of_queues ?_ fun x hx => State.wake_keepsFaults (State.updClus s clus _) _ _ _ _ x hx
    simp only [State.wheel, State.clus, State.wake_cluss]
    change (State.wheel (State.updClus ..) k).queues = _
    rw [State.updClus_def, State.setClus_wheel]
    split
    · subst_vars; rfl
    · rfl

/-- One command is given up (09 R223). -/
def State.discardCmd (s : State) (c : WCmd) : State := (s.removeCmd c).finishUniCmd c.clus c.id

/-- Commands that stand in cluster `k` are in none of its queues once they are given up. -/
theorem State.discardCmds (cs : List WCmd) (s : State) (k t : Nat) (hcs : ∀ c ∈ cs, k ∈ c.cluss) :
    Discards k t s (cs.foldl State.discardCmd s) ∧ ∀ c ∈ cs, ∀ q, ¬ ((cs.foldl State.discardCmd s).wheel k).holds q c := by
  induction cs generalizing s with
  | nil => exact ⟨.refl _, by simp⟩
  | cons c r ih =>
    obtain ⟨hd, hr⟩ := ih (s.discardCmd c) fun d h => hcs d (List.mem_cons_of_mem _ h)
    obtain ⟨h1, hgone⟩ := s.removeCmd_discards c k t
    have h2 := (s.removeCmd c).finishUniCmd_discards c.clus c.id k t
    refine ⟨(h1.trans h2).trans hd, fun d hmem q hh => ?_⟩
    rcases List.mem_cons.mp hmem with rfl | hmem
    · exact hgone (hcs _ List.mem_cons_self) q (h2.holds q _ (hd.holds q _ hh))
    · exact hr d hmem q hh

/-- Task `t`'s commands in queue `q` of cluster `k` are given up. -/
def State.discardIn (k t : Nat) (s : State) (q : Nat) : State :=
  (((s.wheel k).queue q).filter fun c => c.task == t).foldl State.discardCmd s

/-- No command of the task is left in the queues where its commands are given up. -/
theorem State.discardIn_foldl (qs : List Nat) (s : State) (k t : Nat) (hs : ((s.wheel k).queues.map (·.1)).Nodup)
    (hk : ∀ q c, (s.wheel k).holds q c → k ∈ c.cluss) :
    Discards k t s (qs.foldl (State.discardIn k t) s)
      ∧ ∀ q ∈ qs, ∀ c, ((qs.foldl (State.discardIn k t) s).wheel k).holds q c → c.task ≠ t := by
  induction qs generalizing s with
  | nil => exact ⟨.refl _, by simp⟩
  | cons p r ih =>
    obtain ⟨h1, hgone⟩ := State.discardCmds (((s.wheel k).queue p).filter fun c => c.task == t) s k t fun c hc =>
      hk p c (Wheel.holds_of_mem_queue (List.mem_filter.mp hc).1)
    obtain ⟨h2, hr⟩ := ih (s.discardIn k t p) (h1.keys.nodup hs) fun q c hc => hk q c (h1.holds q c hc)
    refine ⟨h1.trans h2, fun q hq c hc ht => ?_⟩
    rcases List.mem_cons.mp hq with rfl | hq
    · have held : (State.wheel (s.discardIn k t q) k).holds q c := h2.holds q c hc
      have hmem : c ∈ (s.wheel k).queue q := (Wheel.mem_queue_iff hs).mpr (h1.holds q c held)
      exact hgone c (List.mem_filter.mpr ⟨hmem, by simpa using ht⟩) q held
    · exact hr q hq c hc ht

/-- The queues in which a discard gives up the commands of a task (assumption 80). -/
def Task.discardQueues (x : Task) : List Nat :=
  if x.fpend.filter x.takenStops.contains = [] then x.fpend else x.fpend.filter x.takenStops.contains

theorem State.wheelDiscard_eq {s : State} {t : Nat} {x : Task} (hx : s.task? t = some x) :
    s.wheelDiscard t = (x.discardQueues.foldl (State.discardIn (clusOf x.tile) t) s).updTask t fun y =>
      { y with fpend := y.fpend.filter fun q => !x.discardQueues.contains q } := by
  have hq : (if (x.fpend.filter x.takenStops.contains).isEmpty then x.fpend else x.fpend.filter x.takenStops.contains)
      = x.discardQueues := by
    simp only [Task.discardQueues, List.isEmpty_iff]
  simp only [State.wheelDiscard, State.task_of_opt hx, hq]
  rfl

/-! The events, one by one. -/

/-- DQRINGp keeps its place and size while its queue is not empty (02 R434). -/
theorem dqringWrite_bits (s : State) (die p : Nat) (v : Word) (hp : p < 16) {i : Nat} (hi : i < 64) :
    (((s.dqringWrite die p v).die die).dqring.toList.getD p 0).getLsbD i =
      (if i = 63 then v.getLsbD 63
       else if (s.die die).queue p ≠ [] then ((s.die die).dqring.toList.getD p 0).getLsbD i
       else (decide (i < 4) || (decide (12 ≤ i) && decide (i < 52))) && v.getLsbD i) := by
  have mask : ∀ j, j < 64 → (0x800F_FFFF_FFFF_F00F#64).getLsbD j
      = (decide (j = 63) || (decide (j < 4) || (decide (12 ≤ j) && decide (j < 52)))) := by decide
  have new : ((s.dqringWrite die p v).die die).dqring.toList.getD p 0 =
      if ((s.die die).queue p).isEmpty then v &&& 0x800F_FFFF_FFFF_F00F#64
      else setBit ((s.die die).dqring.toList.getD p 0) 63 (bit1 (v &&& 0x800F_FFFF_FFFF_F00F#64) 63) := by
    rw [State.dqringWrite, State.updDie_def, State.setDie_die, if_pos rfl]
    exact vecAt_setIfInBounds_self _ _ hp
  rw [new]
  by_cases hq : (s.die die).queue p = []
  · rw [if_pos (by simp [hq]), BitVec.getLsbD_and, mask i hi]
    by_cases h : i = 63 <;> simp [h, hq, Bool.and_comm]
  · rw [if_neg (by simpa using hq), setBit_getLsbD _ _ hi, bit1, BitVec.getLsbD_and, mask 63 (by decide)]
    simp [hq]

theorem scopeWrite_acts {s u : State} {n : Nat} {v : Word} (hn : n < 16) (h : s.scopeSet s.regDom n v = .ok (some u)) :
    Acts (.scopeWrite n v) s u ∧ (u.dom s.regDom).scope.toList.getD n 0 = v := by
  refine ⟨by change execScopeWrite n v s = .next u; rw [execScopeWrite, h]; rfl, ?_⟩
  unfold State.scopeSet at h
  cases hd : s.scopeDesc s.regDom v with
  | error k => simp [hd, Except.map] at h
  | ok r =>
    cases r with
    | none => simp [hd, Except.map] at h
    | some c =>
      simp only [hd, Except.map, Option.map_some, Except.ok.injEq, Option.some.injEq] at h
      rw [← h, State.setDom_dom, if_pos rfl]
      exact vecAt_setIfInBounds_self _ _ hn

theorem wheelFootprintWrite_acts {s u : State} {reg : Nat} {v : Word} (h : s.footprintWrite (0x200 + reg) v = .ok u) :
    Acts (.wheelFootprintWrite reg v) s u := by
  change execWheelFootprintWrite reg v s = .next u
  rw [execWheelFootprintWrite, h]
  rfl

/-- A footprint that is taken: WFKN holds the value, and the task's domain the knot registers (09 R224). -/
theorem wfknWrite_actsOn {s : State} {v : Word} {x : Task} (hx : s.task? s.cur = some x) (busy : s.wheelBusy s.cur = false)
    (hv : v.toNat < 2 ^ 24)
    (room : footprintBytes x.wfsag x.wfbat x.wfrib v ≤ Word.bits x.saveext 11 0 * 4096) (alone : fpCoop x.wfsag = false)
    (rows : fpFirst x.wfsag + fpCount x.wfsag ≤ 1024) (units : fpFirst x.wfrib + fpCount x.wfrib ≤ 1024) :
    ActsOn (.wheelFootprintWrite 3 v) s s.cur fun u y => y = { x with wfkn := v } ∧ ∀ i, i < 24 → v.getLsbD i = true →
      (u.wheel s.myClus).knDom.getD i x.dom = x.dom := by
  have hme : s.me = x := State.me_of_opt hx
  have hmask : v &&& 0xFF_FFFF#64 = v := by
    apply BitVec.eq_of_toNat_eq
    rw [BitVec.toNat_and]
    exact (Nat.and_two_pow_sub_one_eq_mod v.toNat 24).trans (Nat.mod_eq_of_lt hv)
  have own : ({ x with wfkn := v } : Task).sagClus.filter (· != s.myClus) = [] := by
    simp [Task.sagClus, alone, State.myClus, hme]
  have taken : s.footprintWrite 0x203 v = .ok ((s.setWheel s.myClus
      ((s.wheel s.myClus).take x.dom x.wfsag x.wfbat x.wfrib v)).upd fun _ => { x with wfkn := v }) := by
    simp [State.footprintWrite, hme, busy, hmask, alone, Nat.not_lt.mpr rows, Nat.not_lt.mpr units, Nat.not_lt.mpr room, own]
  refine ⟨_, _, wheelFootprintWrite_acts taken, ?_, rfl, fun i hi hb => ?_⟩
  · simp [State.setWheel_def, hx]
  · rw [State.upd_wheel, State.setWheel_wheel, if_pos rfl]
    exact Wheel.take_knDom _ _ _ _ _ _ _ hi hb

theorem wqstatDiscard_actsOn {s : State} {x : Task} (hx : s.task? s.cur = some x)
    (keys : ((s.wheel s.myClus).queues.map (·.1)).Nodup)
    (mine : ∀ q, ∀ c ∈ (s.wheel s.myClus).queue q, s.myClus ∈ c.cluss) :
    ActsOn .wqstatDiscard s s.cur fun u y => y.fpend = x.fpend.filter (fun q => !x.discardQueues.contains q)
      ∧ y.wstop = x.wstop ∧ ∀ q ∈ x.discardQueues, ∀ c ∈ (u.wheel s.myClus).queue q, c.task ≠ s.cur := by
  have hclus : clusOf x.tile = s.myClus := by rw [State.myClus, State.me_of_opt hx]
  obtain ⟨kept, gone⟩ := State.discardIn_foldl x.discardQueues s s.myClus s.cur keys fun q c hc =>
    mine q c ((Wheel.mem_queue_iff keys).mpr hc)
  obtain ⟨y, hy, hf, hw⟩ := kept.faults x hx
  refine ⟨_, { y with fpend := y.fpend.filter fun q => !x.discardQueues.contains q }, rfl, ?_, by simp only [hf], hw,
    fun q hq c hc => ?_⟩
  · rw [State.wheelDiscard_eq hx, hclus, State.updTask_task_opt, if_pos rfl, hy]
    rfl
  · rw [State.wheelDiscard_eq hx, hclus, State.updTask_wheel] at hc
    exact gone q hq c (Wheel.holds_of_mem_queue hc)

/-- STATUS keeps TRACE, and VDROP in handler mode (21 R397). -/
theorem statusWrite_actsOn {s : State} {x : Task} (v : Word) (hx : s.task? s.cur = some x) :
    ActsOn (.statusWrite v) s s.cur fun _ y => ∀ i, i < 64 →
      y.status.getLsbD i = (if i = 2 ∨ (i = 4 ∧ x.hm = true) then v.getLsbD i else x.status.getLsbD i) := by
  refine ⟨_, _, rfl, by rw [State.statusWrite, State.upd_task_opt, if_pos rfl, hx]; rfl, fun i hi => ?_⟩
  have trace : (setBit x.status stTRACE (bit1 v stTRACE)).getLsbD i = if i = 2 then v.getLsbD i else x.status.getLsbD i := by
    rw [setBit_getLsbD _ _ hi]
    by_cases h : i = 2 <;> simp [h, stTRACE, bit1]
  dsimp only
  cases hm : x.hm with
  | false => simp [trace]
  | true =>
    rw [if_pos rfl, setBit_getLsbD _ _ hi, trace]
    by_cases h : i = 4 <;> simp [h, stVDROP, bit1]

theorem btctlWrite_btctl (s : State) (v : Word) : ((s.btctlWrite v).tile s.myTile).btctl =
    setBits (v &&& 0xF_FFFF_FFFF_F01F#64) 4 1 (btLsz v) := by
  rw [State.btctlWrite, State.setTile_tile, if_pos rfl]

/-- BTCTL keeps EN and BASE as they are written (21 R396). -/
theorem btctlWrite_bits (s : State) (v : Word) {i : Nat} (hi : i < 64) (h : i = 0 ∨ (12 ≤ i ∧ i < 52)) :
    ((s.btctlWrite v).tile s.myTile).btctl.getLsbD i = v.getLsbD i := by
  have mask : ∀ j, j < 64 → (j = 0 ∨ (12 ≤ j ∧ j < 52)) → (0xF_FFFF_FFFF_F01F#64).getLsbD j = true := by decide
  rw [btctlWrite_btctl, setBits_getLsbD _ _ (by decide) hi, if_neg (by omega), BitVec.getLsbD_and, mask i hi h, Bool.and_true]

/-- An LSZ above 12 stores 12 (21 R396). -/
theorem btctlWrite_lsz (s : State) (v : Word) :
    Word.bits ((s.btctlWrite v).tile s.myTile).btctl 4 1 = Nat.min 12 (Word.bits v 4 1) := by
  rw [btctlWrite_btctl, Word.bits_setBits _ _ (by decide) (by decide)]
  exact Nat.mod_eq_of_lt (Nat.lt_of_le_of_lt (Nat.min_le_left ..) (by decide))

/-- UETCFG keeps its enable; its bit 1 is not written (20 R385). -/
theorem uetcfgWrite_bits (s : State) {p : Nat} (v : Word) (hp : p < 8) {i : Nat} (hi : i < 64) :
    (vecAt (s.uetcfgWrite p v).uetcfg p).getLsbD i =
      (if i = 0 then v.getLsbD 0 else if i = 1 then (vecAt s.uetcfg p).getLsbD 1 else false) := by
  have one : ∀ j, j < 64 → (1#64).getLsbD j = decide (j = 0) := by decide
  have two : ∀ j, j < 64 → (2#64).getLsbD j = decide (j = 1) := by decide
  have new : vecAt (s.uetcfgWrite p v).uetcfg p = (vecAt s.uetcfg p &&& 2#64) ||| (v &&& 1#64) :=
    vecAt_setIfInBounds_self _ _ hp
  rw [new, BitVec.getLsbD_or, BitVec.getLsbD_and, BitVec.getLsbD_and, one i hi, two i hi]
  by_cases h0 : i = 0
  · simp [h0]
  · by_cases h1 : i = 1 <;> simp [h0, h1]

/-- DAMPCTL keeps GAP and a LIM of 1 to 64 (14 R346). -/
theorem dampctlWrite_fields (s : State) (d : Nat) (v : Word) :
    ((s.dampctlWrite d v).die d).dampctl.toNat % 2 ^ 12 = v.toNat % 2 ^ 12
      ∧ ((s.dampctlWrite d v).die d).dampctl.toNat / 2 ^ 16 = Nat.max 1 (Nat.min 64 (v.toNat / 2 ^ 16 % 2 ^ 7)) := by
  have lim : Nat.max 1 (Nat.min 64 (Word.bits v 22 16)) ≤ 64 := Nat.max_le.mpr ⟨by decide, Nat.min_le_left ..⟩
  have gap : Word.bits v 11 0 = v.toNat % 2 ^ 12 := by simp [Word.bits, Nat.bits]
  have new : ((s.dampctlWrite d v).die d).dampctl.toNat
      = Nat.max 1 (Nat.min 64 (Word.bits v 22 16)) * 65536 + Word.bits v 11 0 := by
    rw [State.dampctlWrite, State.updDie_def, State.setDie_die, if_pos rfl]
    exact Nat.mod_eq_of_lt (by omega)
  rw [new, show v.toNat / 2 ^ 16 % 2 ^ 7 = Word.bits v 22 16 from rfl]
  constructor <;> omega

theorem uetmapWrite_acts {s : State} {v : Word} {m : Mem}
    (h : s.tableImage (v &&& 0x7F_FFFF_FFFF_FF80#64).toNat 131072 = .ok m) :
    Acts (.uetmapWrite v) s { s with uetmap := v &&& 0x7F_FFFF_FFFF_FF80#64, uetTable := m } := by
  change execUetmapWrite v s = _
  unfold execUetmapWrite State.uetmapWrite
  dsimp only
  rw [h]
  rfl

/-- Settles O60: each event's write is that of its register; the discard is the only one that reaches further. -/
theorem registerWriteEvents : Obligations.RegisterWriteEvents := by
  intro s v
  refine ⟨⟨_, rfl, rfl, rfl⟩, fun die p hp => ⟨_, rfl, fun i hi => dqringWrite_bits s die p v hp hi⟩,
    fun n u hn h => scopeWrite_acts hn h, fun hq => ?fpflags, ⟨_, rfl, ?wheelwt⟩,
    fun x hx hb hv room alone rows units => wfknWrite_actsOn hx hb hv room alone rows units,
    fun x hx keys mine => wqstatDiscard_actsOn hx keys mine, rfl, fun x hx => statusWrite_actsOn v hx, fun m hm => uetmapWrite_acts hm,
    fun d => ⟨_, rfl, ?tvbase⟩, fun d => ⟨_, rfl, ?ptroot⟩, fun d i => ⟨_, rfl, ?hchain⟩, fun d i => ⟨_, rfl, ?bkpt⟩,
    ⟨_, rfl, rfl⟩, ⟨_, rfl, rfl⟩, ⟨_, rfl, rfl⟩, ⟨_, rfl, fun i hi h => btctlWrite_bits s v hi h⟩,
    ⟨_, rfl, btctlWrite_lsz s v⟩, ⟨_, rfl, rfl⟩, ⟨_, rfl, rfl⟩,
    fun p hp => ⟨_, rfl, fun i hi => uetcfgWrite_bits s v hp hi⟩, ⟨_, rfl, rfl⟩, ⟨_, rfl, rfl⟩,
    fun d p => ⟨_, rfl, ?dqage⟩, fun d => ⟨_, rfl, dampctlWrite_fields s d v⟩, fun d => ⟨_, rfl, ?xdelay⟩, ⟨_, rfl, rfl⟩,
    fun n => ⟨_, rfl, ?mbtask⟩⟩
  case fpflags =>
    change execFpflagsWrite v s = _
    rw [execFpflagsWrite, hq]
    rfl
  case wheelwt => rw [State.wheelwtWrite, State.updClus_def, State.setClus_wheel, if_pos rfl]
  case tvbase => simp [State.plainWrite, State.tvbaseWrite]
  case ptroot => simp [State.plainWrite, State.ptrootWrite]
  case hchain => simp [State.plainWrite, State.hchainWrite]
  case bkpt => simp [State.plainWrite, State.bkptWrite]
  case dqage => simp [State.plainWrite, State.dqageWrite, State.updDie_def]
  case xdelay => simp [State.plainWrite, State.xdelayWrite, State.updDie_def]
  case mbtask => simp [State.plainWrite, State.mbtaskWrite, State.updMbox, State.mbox]

end Sys2Proof.Machine
end

section
/-! The events of dispatch, of gangs and of the wire unit (02 R49, R52, R53, R60, R71): the queues of a die, what a task has
when it begins and what its beginning leaves alone, the frames that a gang takes, and the answer to an RTAKE. -/

namespace Sys2Proof.Machine

open Sys2Proof

/-! The queues of a die (02 R49). -/

/-- A queue put in is read back, and no other queue changes. -/
theorem Die.setQueue_queue (d : Die) (p q : Nat) (l : List DRec) :
    (d.setQueue p l).queue q = if p = q then l else d.queue q := by
  cases l with
  | nil =>
    simp only [Die.queue, Die.setQueue, List.isEmpty_nil, if_true, Map.getD, Map.get?_del]
    split <;> rfl
  | cons r l => exact Map.getD_set ..

@[simp] theorem Die.setQueue_joinHeld (d : Die) (p : Nat) (l : List DRec) : (d.setQueue p l).joinHeld = d.joinHeld := rfl

/-! What the beginning of a task leaves alone (02 R62). -/

/-- From `s` to `u` the dies, the gangs and every task but `t` are the same. -/
structure KeepsOthers (t : Nat) (s u : State) : Prop where
  dies : u.dies = s.dies
  gangs : u.gangs = s.gangs
  tasks : ∀ a, a ≠ t → u.task? a = s.task? a

theorem KeepsOthers.trans {t : Nat} {s u v : State} (h1 : KeepsOthers t s u) (h2 : KeepsOthers t u v) : KeepsOthers t s v where
  dies := h2.dies.trans h1.dies
  gangs := h2.gangs.trans h1.gangs
  tasks a ha := (h2.tasks a ha).trans (h1.tasks a ha)

theorem KeepsOthers.of_tasks {t : Nat} {s u : State} (hd : u.dies = s.dies) (hg : u.gangs = s.gangs) (ht : u.tasks = s.tasks) :
    KeepsOthers t s u where
  dies := hd
  gangs := hg
  tasks a _ := by rw [State.task?, State.task?, ht]

theorem KeepsOthers.setTask (t : Nat) (s : State) (x : Task) : KeepsOthers t s (s.setTask t x) where
  dies := rfl
  gangs := rfl
  tasks a ha := by rw [State.setTask_task_opt, if_neg ha.symm]

theorem KeepsOthers.updTask (t : Nat) (s : State) (f : Task → Task) : KeepsOthers t s (s.updTask t f) where
  dies := by unfold State.updTask; split <;> rfl
  gangs := by unfold State.updTask; split <;> rfl
  tasks a ha := by rw [State.updTask_task_opt, if_neg ha.symm]

theorem State.claimFrame_keeps (s : State) (f dom t : Nat) : KeepsOthers t s (s.claimFrame f dom) := by
  unfold State.claimFrame State.unpoison
  dsimp only
  split
  · exact .of_tasks rfl rfl rfl
  · split <;> exact .of_tasks rfl rfl rfl

theorem State.cleanRegs_keeps (s : State) (f : Nat) (rs : List Reg) (t : Nat) : KeepsOthers t s (s.cleanRegs f rs) := by
  unfold State.cleanRegs
  split <;> exact .of_tasks rfl rfl rfl

theorem State.dropLines_tasks (s : State) (t : Nat) : (s.dropLines t).tasks = s.tasks := by
  unfold State.dropLines
  dsimp only
  split <;> rfl

theorem State.dropLines_keeps (s : State) (f t : Nat) : KeepsOthers t s (s.dropLines f) := by
  refine .of_tasks ?_ ?_ (s.dropLines_tasks f)
  all_goals
    unfold State.dropLines
    dsimp only
    split <;> rfl

/-- The check of a frame's homes can only raise a pending cause of its task (20 R389). -/
theorem State.checkFrame_cases (s : State) (t : Nat) :
    s.checkFrame t = s ∨ ∃ e : Pend, s.checkFrame t = s.updTask t fun y => { y with pend := y.pend ++ [e] } := by
  unfold State.checkFrame
  dsimp only
  split
  · exact .inl rfl
  · split
    · exact .inl rfl
    · exact .inr ⟨_, rfl⟩

theorem State.checkFrame_keeps (s : State) (t : Nat) : KeepsOthers t s (s.checkFrame t) := by
  rcases s.checkFrame_cases t with h | ⟨e, h⟩
  · rw [h]
    exact .of_tasks rfl rfl rfl
  · rw [h]
    exact .updTask ..

/-! How a task begins (02 R62). -/

/-- Task `x` stands as one that has begun as `b`, with the registers that `regs` makes of those in its frame. -/
structure Task.BegunAs (x : Task) (b : Start) (regs : Vector Word 64 → Vector Word 64) : Prop where
  run : x.run = .run
  pc : x.pc = b.code
  tile : x.tile = b.tile
  ctx : x.ctx = b.ctx
  dom : x.dom = b.dom
  gang : x.gang = b.gang
  status : x.status = 0
  fpflags : x.fpflags = 0
  regs : ∃ v, x.s = regs v

/-- What newTask does: changes that leave every other task alone, the task's record, and the checks of its frame. -/
theorem State.newTask_cases (s : State) (f : Nat) (b : Start) (regs : Vector Word 64 → Vector Word 64) :
    ∃ (u : State) (x : Task), s.newTask f b regs = ((u.setTask f x).dropLines f).checkFrame f ∧ KeepsOthers f s u
      ∧ x.BegunAs b regs := by
  refine ⟨_, _, rfl, ?_, ⟨rfl, rfl, rfl, rfl, rfl, rfl, rfl, rfl, _, rfl⟩⟩
  have party : KeepsOthers f (s.claimFrame f b.dom) (s.claimFrame f b.dom).newParty.2 := .of_tasks rfl rfl rfl
  exact ((s.claimFrame_keeps f b.dom f).trans party).trans (State.cleanRegs_keeps ..)

theorem State.newTask_keeps (s : State) (f : Nat) (b : Start) (regs : Vector Word 64 → Vector Word 64) :
    KeepsOthers f s (s.newTask f b regs) := by
  obtain ⟨u, x, hnew, hu, -⟩ := s.newTask_cases f b regs
  rw [hnew]
  exact ((hu.trans (.setTask ..)).trans (State.dropLines_keeps ..)).trans (State.checkFrame_keeps ..)

theorem State.newTask_begun (s : State) (f : Nat) (b : Start) (regs : Vector Word 64 → Vector Word 64) :
    ∃ x, (s.newTask f b regs).task? f = some x ∧ x.BegunAs b regs := by
  obtain ⟨u, x, hnew, -, hx⟩ := s.newTask_cases f b regs
  have here : ((u.setTask f x).dropLines f).task? f = some x := by
    rw [State.task?, State.dropLines_tasks]
    exact Map.get?_set_self ..
  rw [hnew]
  rcases ((u.setTask f x).dropLines f).checkFrame_cases f with h | ⟨e, h⟩
  · exact ⟨x, by rw [h, here], hx⟩
  · refine ⟨{ x with pend := x.pend ++ [e] }, ?_, { hx with }⟩
    rw [h, State.updTask_task_opt, if_pos rfl, here]
    rfl

/-- A scalar register other than s0 is read from the register file (01 R17). -/
theorem Task.sreg_of_s {x : Task} {v : Vector Word 64} (h : x.s = v) {n : BitVec 6} (hn : n ≠ 0) :
    x.sreg n = v[n.toNat] := by
  subst h
  exact if_neg hn

/-! Records (02 R49, R52, R53). -/

/-- How a record's task begins (02 R51). -/
def DRec.start (r : DRec) (tile ctx : Nat) : Start :=
  { code := r.code, dom := ctlDom r.ctl, tile := tile, ctx := ctx, keep := ctlKeep r.ctl, gang := none, share := 0, clk := r.clk }

/-- The registers of a record's task in a new frame: s1 is ARG, s2 the control word with the priority at dispatch (02 R53, R62). -/
def DRec.newRegs (r : DRec) (p : Nat) (v : Vector Word 64) : Vector Word 64 := (v.set 1 r.arg).set 2 (ctlWithPrio r.ctl p)

/-- A record whose task starts in a new frame: no die changes, and the task is there (02 R51, R63). -/
theorem State.startRecord_newFrame {s : State} {r : DRec} {f : Nat} (p tile ctx : Nat) (hr : r.frame = 0)
    (hf : s.pickFrame (ctlDom r.ctl) = some f) :
    (s.startRecord r p tile ctx).dies = s.dies
      ∧ ∃ x, (s.startRecord r p tile ctx).task? f = some x ∧ x.BegunAs (r.start tile ctx) (r.newRegs p) := by
  have hstart : s.startRecord r p tile ctx = s.free.2.newTask f (r.start tile ctx) (r.newRegs p) := by
    simp only [State.startRecord, hr, hf, if_true]
    rfl
  rw [hstart]
  exact ⟨(State.newTask_keeps ..).dies, State.newTask_begun ..⟩

/-- The record leaves its queue. -/
def State.takeRecord (s : State) (d p : Nat) (r : DRec) : State := s.updDie d fun x => x.setQueue p ((x.queue p).erase r)

theorem State.takeRecord_queue (s : State) (d p : Nat) (r : DRec) :
    ((s.takeRecord d p r).die d).queue p = ((s.die d).queue p).erase r := by
  rw [State.takeRecord, State.updDie_def, State.setDie_die, if_pos rfl, Die.setQueue_queue, if_pos rfl]

section

variable {s : State} {tile ctx d p : Nat} {r : DRec} (idle : s.idleCtx tile ctx = true)
    (present : s.isPresent (clusOf tile) = true) (noResume : s.resumingAt tile = none)
    (noGang : (s.tellNoFrame tile).nextGang tile = none) (one : (s.tellNoFrame tile).candidates tile = [(d, p, r)])

include idle present noResume noGang one

/-- An idle context for which one record stands, and no resuming task or gang, goes to that record (02 R52, R60). -/
theorem State.dispatch_oneRecord :
    s.dispatch tile ctx = ((s.tellNoFrame tile).takeRecord d p r).startRecord r p tile ctx := by
  simp [State.dispatch, idle, present, noResume, State.gangFirst, noGang, one, State.dispatchRecord, State.takeRecord]

theorem recordDispatch_actsOn {f : Nat} (hr : r.frame = 0) (hf : (s.tellNoFrame tile).pickFrame (ctlDom r.ctl) = some f) :
    ActsOn (.recordDispatch tile ctx) s f fun u x =>
      (u.die d).queue p = (((s.tellNoFrame tile).die d).queue p).erase r ∧ x.run = .run ∧ x.pc = r.code ∧ x.tile = tile
        ∧ x.ctx = ctx ∧ x.dom = ctlDom r.ctl ∧ x.sreg 1 = r.arg ∧ x.sreg 2 = ctlWithPrio r.ctl p ∧ x.status = 0 ∧ x.fpflags = 0 := by
  have frame : ((s.tellNoFrame tile).takeRecord d p r).pickFrame (ctlDom r.ctl) = some f := hf
  obtain ⟨dies, x, hx, begun⟩ := State.startRecord_newFrame p tile ctx hr frame
  obtain ⟨v, hv⟩ := begun.regs
  have s1 : x.sreg 1 = r.arg := by
    rw [Task.sreg_of_s hv (by decide)]
    simp [DRec.newRegs]
  have s2 : x.sreg 2 = ctlWithPrio r.ctl p := by
    rw [Task.sreg_of_s hv (by decide)]
    simp [DRec.newRegs]
  rw [← State.dispatch_oneRecord idle present noResume noGang one] at dies hx
  refine ⟨_, x, rfl, hx, ?_, begun.run, begun.pc, begun.tile, begun.ctx, begun.dom, s1, s2, begun.status, begun.fpflags⟩
  rw [State.die, dies]
  exact State.takeRecord_queue ..

end

/-- The cks that a record waits in a queue before it rises (02 R53). -/
def Die.ageLimit (d : Die) (p : Nat) : Nat := 1024 * Word.bits (d.dqage.toList.getD p 0) 15 0

/-- The oldest record that has waited beyond the limit rises by one (02 R53). -/
theorem queueAging_acts {s : State} {die p : Nat} {r : DRec} (hp : p < 15) (limit : (s.die die).ageLimit p ≠ 0)
    (late : ((s.die die).queue p).find? (fun r => decide ((s.die die).ageLimit p < (s.cycle - r.since).toNat)) = some r)
    (room : (s.die die).hasRoom (p + 1) = true) :
    ∃ u, Acts (.queueAging die p) s u ∧ (u.die die).queue p = ((s.die die).queue p).erase r
      ∧ (u.die die).queue (p + 1) = (s.die die).queue (p + 1) ++ [{ r with since := s.cycle }] := by
  have aged : (s.ageQueue die p).die die = ((s.die die).setQueue p (((s.die die).queue p).erase r)).setQueue (p + 1)
      ((s.die die).queue (p + 1) ++ [{ r with since := s.cycle }]) := by
    unfold Die.ageLimit at limit late
    simp only [State.ageQueue, Nat.not_le.mpr hp, limit, late, room, if_true]
    exact State.setDie_die.trans (if_pos rfl)
  refine ⟨_, rfl, ?_, ?_⟩
  · rw [aged, Die.setQueue_queue, if_neg (by omega), Die.setQueue_queue, if_pos rfl]
  · rw [aged, Die.setQueue_queue, if_pos rfl]

theorem State.putFrame_dies (s : State) (t : Nat) (vp : Word) : (s.putFrame t vp).dies = s.dies := by
  unfold State.putFrame
  refine List.foldlRecOn (motive := fun u : State => u.dies = s.dies) _ _ rfl fun u hu p _ => ?_
  dsimp only
  split
  · exact hu
  · exact hu

theorem State.editTask_dies (s : State) (t : Nat) (f : Task → Task) : (s.editTask t f).dies = s.dies := by
  unfold State.editTask
  split
  · rfl
  · split
    · rfl
    · exact State.putFrame_dies ..

theorem State.wake_dies (s : State) (t kind r : Nat) : (s.wake t kind r).dies = s.dies := by
  unfold State.wake
  split
  · rfl
  · split
    · exact State.editTask_dies ..
    · rfl

/-- The oldest held record enters its queue; a JOIN that then takes the place it leaves changes no die (02 R49). -/
theorem joinHeldPush_acts {s : State} {die : Nat} {r : DRec} {l : List DRec} (held : (s.die die).joinHeld = r :: l)
    (room : (s.die die).hasRoom (ctlPrio r.ctl) = true) :
    ∃ u, Acts (.joinHeldPush die) s u ∧ (u.die die).joinHeld = l
      ∧ (u.die die).queue (ctlPrio r.ctl) = (s.die die).queue (ctlPrio r.ctl) ++ [{ r with since := s.cycle }] := by
  have pushed : (s.joinHeldPush die).die die = ({ s.die die with joinHeld := l } : Die).setQueue (ctlPrio r.ctl)
      ((s.die die).queue (ctlPrio r.ctl) ++ [{ r with since := s.cycle }]) := by
    simp only [State.joinHeldPush, held, List.find?_cons, room, List.erase_cons_head]
    split
    · split
      · rw [State.die, State.wake_dies]
        exact State.setDie_die.trans (if_pos rfl)
      · exact State.setDie_die.trans (if_pos rfl)
    · exact State.setDie_die.trans (if_pos rfl)
  refine ⟨_, rfl, ?_, ?_⟩
  · rw [pushed, Die.setQueue_joinHeld]
  · rw [pushed, Die.setQueue_queue, if_pos rfl]

/-! Gangs (02 R60). -/

@[simp] theorem State.updGang_gang_opt (s : State) (g a : Nat) (f : Gang → Gang) :
    (s.updGang g f).gang? a = if g = a then (s.gang? a).map f else s.gang? a := by
  unfold State.updGang
  split
  · rename_i x hx
    by_cases h : g = a
    · subst h
      simp [hx]
    · simp [h]
  · rename_i hx
    by_cases h : g = a
    · subst h
      simp [hx]
    · simp [h]

theorem gangWake_acts {s : State} {g tile c : Nat} {x : Gang} (noResume : s.resumingAt tile = none)
    (first : s.gangFirst tile (s.candidates tile).head? = some g) (idle : s.freeCtx tile = some c) (hx : s.gang? g = some x) :
    ∃ u, Acts (.gangWake g tile) s u ∧ u.gang? g = some { x with resv := x.resv ++ [(tile, c)] } := by
  refine ⟨_, rfl, ?_⟩
  have woken : s.gangWake g tile = s.reserve g tile c := by simp [State.gangWake, noResume, first, idle]
  rw [woken, State.reserve, State.updGang_gang_opt, if_pos rfl, hx]
  rfl

/-- A gang takes one frame for each member and none twice; no gang changes by it. -/
theorem State.gangFrames_some {s u : State} {dom n : Nat} {acc fs : List Nat} (h : s.gangFrames dom n acc = some (fs, u))
    (hacc : acc.Nodup) : u.gangs = s.gangs ∧ fs.length = acc.length + n ∧ fs.Nodup := by
  induction n generalizing s acc with
  | zero =>
    obtain ⟨rfl, rfl⟩ : acc = fs ∧ s = u := by simpa [State.gangFrames] using h
    exact ⟨rfl, rfl, hacc⟩
  | succ n ih =>
    simp only [State.gangFrames] at h
    split at h
    · cases h
    · rename_i f l hl
      have unused : ∀ a ∈ f :: l, a ∉ acc := fun a ha hmem => by
        rw [← hl, List.mem_filter] at ha
        simp [hmem] at ha
      have picked : (if (f :: l).length = 1 then f
          else (f :: l).getD (Config.frameChoice s.fresh % (f :: l).length) f) ∈ f :: l := by
        split
        · exact List.mem_cons_self
        · rw [List.getD_eq_getElem?_getD, List.getElem?_eq_getElem (Nat.mod_lt _ (by simp)), Option.getD_some]
          exact List.getElem_mem _
      rw [hl] at h
      obtain ⟨hg, hlen, hnodup⟩ := ih h ((List.perm_append_singleton ..).nodup_iff.mpr (List.nodup_cons.mpr ⟨unused _ picked, hacc⟩))
      refine ⟨hg, ?_, hnodup⟩
      rw [hlen, List.length_append, List.length_singleton]
      omega

/-- The tasks of a list begin one after another, that of `p` in frame `fr p`. -/
def State.beginAll {α : Type} (fr : α → Nat) (b : α → Start) (regs : α → Vector Word 64 → Vector Word 64) (l : List α)
    (s : State) : State := l.foldl (fun st p => st.newTask (fr p) (b p) (regs p)) s

section

variable {α : Type} (fr : α → Nat) (b : α → Start) (regs : α → Vector Word 64 → Vector Word 64)

theorem State.beginAll_gangs (l : List α) (s : State) : (s.beginAll fr b regs l).gangs = s.gangs := by
  induction l generalizing s with
  | nil => rfl
  | cons p r ih => exact (ih _).trans (State.newTask_keeps ..).gangs

/-- No task but those that begin changes. -/
theorem State.beginAll_task_ne (l : List α) (s : State) {a : Nat} (ha : a ∉ l.map fr) :
    (s.beginAll fr b regs l).task? a = s.task? a := by
  induction l generalizing s with
  | nil => rfl
  | cons p r ih =>
    rw [List.map_cons, List.mem_cons, not_or] at ha
    exact (ih _ ha.2).trans ((State.newTask_keeps ..).tasks a ha.1)

theorem State.beginAll_begun (l : List α) (s : State) (hl : (l.map fr).Nodup) {p : α} (hp : p ∈ l) :
    ∃ x, (s.beginAll fr b regs l).task? (fr p) = some x ∧ x.BegunAs (b p) (regs p) := by
  induction l generalizing s with
  | nil => cases hp
  | cons q r ih =>
    obtain ⟨hq, hr⟩ := List.nodup_cons.mp hl
    rcases List.mem_cons.mp hp with rfl | hp
    · obtain ⟨x, hx, begun⟩ := s.newTask_begun (fr p) (b p) (regs p)
      exact ⟨x, (State.beginAll_task_ne fr b regs r _ hq).trans hx, begun⟩
    · exact ih (s.newTask (fr q) (b q) (regs q)) hr hp

end

/-- The gang once its members have begun in frames `fs`. -/
def Gang.begun (x : Gang) (fs : List Nat) : Gang := { x with pending := false, started := true, resv := [], tasks := fs }

/-- How the member of place `p` begins: its tile, its frame and its number (02 R60, R62). -/
def Gang.memberStart (x : Gang) (g : Nat) (p : (Nat × Nat) × Nat) : Start :=
  { code := x.code, dom := x.dom, tile := p.1.1, ctx := ((x.resv.find? fun r => r.1 == p.1.1).map (·.2)).getD 0, keep := false,
    gang := some g, share := p.2, clk := x.clk }

/-- The registers of that member: s1 is its number, s2 the count of members, s3 the gang's ARG (02 R62). -/
def Gang.memberRegs (x : Gang) (p : (Nat × Nat) × Nat) (v : Vector Word 64) : Vector Word 64 :=
  ((v.set 1 (BitVec.ofNat 64 p.2)).set 2 (BitVec.ofNat 64 x.tiles.length)).set 3 x.arg

section

variable {s s1 : State} {g : Nat} {x : Gang} {fs : List Nat} (hx : s.gang? g = some x)
    (pending : x.pending = true) (first : x.started = false) (reserved : ∀ t ∈ x.tiles, ∃ r ∈ x.resv, r.1 = t)
    (frames : s.gangFrames x.dom x.tiles.length [] = some (fs, s1))

include hx pending first reserved frames

/-- A gang whose member tiles all hold a reservation, and for which there are frames: its members begin. -/
theorem State.gangStart_first :
    s.gangStart g = (s1.updGang g (·.begun fs)).beginAll (·.1.2) (x.memberStart g) x.memberRegs (x.tiles.zip fs).zipIdx := by
  have all : ((s.needTiles x).all fun t => x.resv.any fun r => r.1 == t) = true := by
    simpa [State.needTiles, first] using reserved
  simp only [State.gangStart, hx, pending, all, first, frames]
  rfl

theorem gangStart_acts :
    ∃ u, Acts (.gangStart g) s u
      ∧ u.gang? g = some { x with pending := false, started := true, resv := [], tasks := fs }
      ∧ ∀ i t f, x.tiles[i]? = some t → fs[i]? = some f → ∃ y, u.task? f = some y ∧ y.pc = x.code ∧ y.tile = t
        ∧ y.gang = some g ∧ y.sreg 1 = BitVec.ofNat 64 i ∧ y.sreg 2 = BitVec.ofNat 64 x.tiles.length ∧ y.sreg 3 = x.arg := by
  obtain ⟨gangs, len, nodup⟩ := State.gangFrames_some frames List.nodup_nil
  have frs : (x.tiles.zip fs).zipIdx.map (·.1.2) = fs := by
    calc (x.tiles.zip fs).zipIdx.map (·.1.2) = ((x.tiles.zip fs).zipIdx.map Prod.fst).map Prod.snd := by rw [List.map_map]; rfl
      _ = fs := by rw [List.zipIdx_map_fst, List.map_snd_zip (by simp [len])]
  refine ⟨_, rfl, ?_, fun i t f ht hf => ?_⟩
  · rw [State.gangStart_first hx pending first reserved frames, State.gang?, State.beginAll_gangs]
    change State.gang? (s1.updGang ..) g = _
    rw [State.updGang_gang_opt, if_pos rfl, State.gang?, gangs]
    change (s.gang? g).map _ = _
    rw [hx]
    rfl
  · have member : ((t, f), i) ∈ (x.tiles.zip fs).zipIdx := by
      rw [List.mem_zipIdx_iff_getElem?, List.getElem?_zip_eq_some]
      exact ⟨ht, hf⟩
    obtain ⟨y, hy, begun⟩ := State.beginAll_begun (·.1.2) (x.memberStart g) x.memberRegs _ (s1.updGang g (·.begun fs))
      (frs.symm ▸ nodup) member
    obtain ⟨v, hv⟩ := begun.regs
    refine ⟨y, by rw [State.gangStart_first hx pending first reserved frames, hy], begun.pc, begun.tile, begun.gang, ?_, ?_, ?_⟩
    all_goals
      rw [Task.sreg_of_s hv (by decide)]
      simp [Gang.memberRegs]

end

/-! The wire unit (02 R70, R71). -/

/-- What an RTAKE takes of what a range has left (02 R71). -/
def Range.share (r : Range) : Nat :=
  Nat.min (r.hi.toNat - r.next.toNat) (Nat.max r.min.toNat (divUp (r.hi.toNat - r.next.toNat) r.p.toNat))

/-- The cases of an RTAKE: a range that is not of its domain, an empty one, and one that gives a share (02 R71). -/
theorem Die.wireServe_rtake (d : Die) (n dom : Nat) :
    let r := d.ranges.getD n Range.reset
    (r.valid = false ∨ r.dom.toNat ≠ dom → d.wireServe n dom none = none)
      ∧ (r.valid = true → r.dom.toNat = dom → r.hi.toNat - r.next.toNat = 0 → d.wireServe n dom none = some ((r.hi, 0), d))
      ∧ (r.valid = true → r.dom.toNat = dom → r.hi.toNat - r.next.toNat ≠ 0 →
          d.wireServe n dom none = some ((r.next, BitVec.ofNat 64 r.share),
            { d with ranges := d.ranges.set n { r with next := r.next + BitVec.ofNat 64 r.share } })) := by
  refine ⟨fun h => ?_, fun hv hd h0 => ?_, fun hv hd h0 => ?_⟩
  · simp [Die.wireServe, h]
  · simp [Die.wireServe, hv, hd, h0]
  · unfold Die.wireServe
    dsimp only
    rw [if_neg (by simp [hv, hd]), if_neg h0]
    rfl

/-- The answer that a served request has (02 R70, R71). -/
def wireAnswer (ans : Option ((Word × Word) × Die)) : WireSt :=
  match ans with
  | none => .fault
  | some (p, _) => .got p.1 p.2

theorem wireRequestServe_actsOn {s : State} {die idx : Nat} {q : WireReq} {x : Task} {ans : Option ((Word × Word) × Die)}
    (hq : (s.die die).wireReqs[idx]? = some q) (hx : s.task? q.task = some x) (take : q.init = none)
    (hans : (s.die die).wireServe (q.range % 64) x.dom none = ans) :
    ActsOn (.wireRequestServe die idx) s q.task fun u y =>
      u.die die = { (ans.map (·.2)).getD (s.die die) with wireReqs := (s.die die).wireReqs.eraseIdx idx }
        ∧ y = { x with wire := some (wireAnswer ans) } := by
  have served : s.serveWire die idx = (s.setDie die { (ans.map (·.2)).getD (s.die die) with
      wireReqs := (s.die die).wireReqs.eraseIdx idx }).updTask q.task fun t => { t with wire := some (wireAnswer ans) } := by
    simp only [State.serveWire, hq, take, State.task_of_opt hx, hans]
    rfl
  refine ⟨_, _, rfl, ?_, ?_, rfl⟩
  · rw [served, State.updTask_task_opt, if_pos rfl, State.setDie_task_opt, hx]
    rfl
  · rw [served, State.updTask_die, State.setDie_die, if_pos rfl]

/-- Settles O55: each event acts as its lemma above says. -/
theorem dispatchEvents : Obligations.DispatchEvents := by
  intro s
  refine ⟨fun tile ctx d p r f idle present noResume noGang one hr hf =>
      recordDispatch_actsOn idle present noResume noGang one hr hf,
    fun die p r hp limit late room => queueAging_acts hp limit late room,
    fun die r l held room => joinHeldPush_acts held room,
    fun g tile c x noResume first idle hx => gangWake_acts noResume first idle hx,
    fun g x fs s1 hx pending first reserved frames => gangStart_acts hx pending first reserved frames,
    fun die idx q x hq hx take => ?_⟩
  obtain ⟨u, y, hu, hy, hdie, rfl⟩ := wireRequestServe_actsOn hq hx take rfl
  obtain ⟨refused, empty, share⟩ := (s.die die).wireServe_rtake (q.range % 64) x.dom
  refine ⟨u, _, hu, hy, ?_, fun h => ?_, fun hv hd h0 => ?_, fun hv hd h0 => ⟨?_, ?_⟩⟩
  · rw [hdie]
  · rw [refused h]
    rfl
  · rw [empty hv hd h0]
    rfl
  · rw [share hv hd h0]
    rfl
  · rw [hdie, share hv hd h0]
    exact Map.getD_set_self ..

end Sys2Proof.Machine
end
